-- ==== Sys2Proof/Word.lean ====
section
/-! DEFINITION. The word types of the mem256 CORE, with the widths of 00_scope.md R6, and the four-limb value of R7, R8
and R20. Only types and names stand here; every operation on them is in Machine/Limbs.lean. -/

namespace Sys2Proof

/-- A limb, and the width of `din` and `dout`: `LW` = `DW` = 64 (R6). -/
abbrev Limb := BitVec 64

/-- A command word: `CW` = 32 (R6, R63). -/
abbrev CommandWord := BitVec 32

/-- An opcode, `cmd[7:0]` (R65). -/
abbrev OpcodeByte := BitVec 8

/-- The LIMB field, `cmd[9:8]`: every value 0..3 is legal (R66). -/
abbrev LimbIndex := BitVec 2

/-- The DIST field: `DISTW` = 16 (R6, R68). -/
abbrev Distance := BitVec 16

/-- The IDX field: `IDXW` = 8 (R6, R69). -/
abbrev BitIndex := BitVec 8

/-- A START or END field: `BNDW` = 9 (R6, R70). -/
abbrev Bound := BitVec 9

/-- STATUS.RES: `RESW` = 9 (R6, R27). -/
abbrev ResField := BitVec 9

/-- STATUS.ECODE: `ECW` = 3 (R6, R28). -/
abbrev EcodeField := BitVec 3

/-- A 256-bit value as exactly `NL` = 4 unsigned 64-bit limbs, limb 0 least significant (R6, R7, R20, R42). Every pattern
is legal, and two values are equal exactly when all four limbs are (R8). -/
structure Value where
  /-- Bits 0 to 63. The source's role name is LOW (R10). -/
  l0 : Limb
  /-- Bits 64 to 127, MID_LOW. -/
  l1 : Limb
  /-- Bits 128 to 191, MID_HIGH. -/
  l2 : Limb
  /-- Bits 192 to 255, HIGH. -/
  l3 : Limb
deriving DecidableEq, Repr

/-- The four-limb tuple as the spec writes it, high to low: `(L3, L2, L1, L0)` (R11). -/
abbrev Value.tuple (a3 a2 a1 a0 : Limb) : Value := ⟨a0, a1, a2, a3⟩

end Sys2Proof
end

