-- ==== Sys2Proof/Machine/Limbs.lean ====
section
/-! DEFINITION. Reading and writing the limbs and bits of a 256-bit value (00_scope.md R7 to R9, 20_memory.md R41 to R43). -/

namespace Sys2Proof

/-- `X.L[j]` for j in 0..3 (R9). There is no limb above 3; the pseudocode never reads one, and this function answers 0. -/
def Value.limbAt (x : Value) (j : Nat) : Limb :=
  match j with
  | 0 => x.l0
  | 1 => x.l1
  | 2 => x.l2
  | 3 => x.l3
  | _ => 0

/-- `X.L[j] <- d` (R9, R43): the other limbs stay. There is no limb above 3 to write. -/
def Value.setLimb (x : Value) (j : Nat) (d : Limb) : Value :=
  match j with
  | 0 => { x with l0 := d }
  | 1 => { x with l1 := d }
  | 2 => { x with l2 := d }
  | 3 => { x with l3 := d }
  | _ => x

/-- The value whose limb j is `f j`, as a loop `for j in 0..3` writes it. -/
def Value.ofLimbs (f : Nat → Limb) : Value := ⟨f 0, f 1, f 2, f 3⟩

/-- `val(X)` (R8). -/
def Value.val (x : Value) : Nat :=
  x.l0.toNat + x.l1.toNat * 2 ^ 64 + x.l2.toNat * 2 ^ 128 + x.l3.toNat * 2 ^ 192

/-- `pat(n)`: the 256-bit pattern whose `val` is n mod 2^256 (R9). -/
def Value.pat (n : Nat) : Value := Value.ofLimbs fun j => BitVec.ofNat 64 (n / 2 ^ (64 * j))

/-- `X[i]`: bit i lives in limb i div 64 at position i mod 64 (R7, R9). -/
def Value.bit (x : Value) (i : Nat) : Bool := (x.limbAt (i / 64)).getLsbD (i % 64)

/-- The zero value. -/
def Value.zero : Value := ⟨0, 0, 0, 0⟩

/-- `popcount_w(x)`: the number of 1 bits among the w bits of x (R9). -/
def popcountBits {w : Nat} (x : BitVec w) : Nat := (List.range w).countP fun b => x.getLsbD b

end Sys2Proof
end

