-- ==== Sys2Proof/Config.lean ====
section
/-! DEFINITION. What the spec fixes for every block (the constants of R6 that the computations use) and the one free
value of the model: what `dout` holds in a cycle whose `rsp_valid` is 0. -/

namespace Sys2Proof

/-- `DMASK` = 255: the mask applied to an unsigned shift distance (R6, R120). -/
abbrev Config.dmask : Nat := 255

/-- `dout` in a cycle with `rsp_valid = 0` is unspecified (R62, U5 of 93_implementation_defined.md). A free value, one
for each value of the counter `State.freeIndex`: nothing in Lean can tell what it is. Safe. Log entry 3. -/
opaque Config.idleDout : Nat → Limb

end Sys2Proof
end

