-- ==== Sys2Proof/Syntax.lean ====
section
/-! DEFINITION. The 17 commands of 30_encoding.md R71, one constructor per row of spec/opcode_table.json, the error codes
of R201, the command formats of R64, the pair (command word, data word) of R60, and the assembler's lines of R76 and R78. -/

namespace Sys2Proof

/-- The operand-select bit S of IOR, AND and XOR (R67): `b` is S = 0, `v` is S = 1 (the aliased call). -/
inductive OpSel where
  | b
  | v
deriving DecidableEq, Repr

/-- One command with its operand fields, each of the width R64 gives it. `din` is no field of the command word: WRV and
WRB read it from the data port (R60, R75). The columns are OPC, format, rule. -/
inductive Instr where
  /-- 0x00, N, R103. -/
  | nop
  /-- 0x01, L, R104. -/
  | wrv (limb : LimbIndex)
  /-- 0x02, L, R105. -/
  | rdv (limb : LimbIndex)
  /-- 0x03, L, R106. -/
  | wrb (limb : LimbIndex)
  /-- 0x04, L, R107. -/
  | rdb (limb : LimbIndex)
  /-- 0x05, N, R108. -/
  | rdst
  /-- 0x06, N, R109. -/
  | clrst
  /-- 0x10, D, R125. -/
  | lshift (dist : Distance)
  /-- 0x11, D, R126. -/
  | rshift (dist : Distance)
  /-- 0x12, D, R127: the field is read as two's complement. -/
  | shift (dist : Distance)
  /-- 0x20, I, R151. -/
  | get (idx : BitIndex)
  /-- 0x21, N, R152. -/
  | popcnt
  /-- 0x22, N, R153. -/
  | highbit
  /-- 0x30, R, R171. -/
  | fill (start stop : Bound)
  /-- 0x40, S, R181. -/
  | ior (op : OpSel)
  /-- 0x41, S, R182. -/
  | and (op : OpSel)
  /-- 0x42, S, R183. -/
  | xor (op : OpSel)
deriving DecidableEq, Repr

/-- The command names of R71, without operands. -/
inductive Opcode where
  | nop | wrv | rdv | wrb | rdb | rdst | clrst | lshift | rshift | shift | get | popcnt | highbit | fill | ior | and | xor
deriving DecidableEq, Repr

/-- The six command formats of R64. -/
inductive Format where
  /-- No operand. -/
  | n
  /-- LIMB = cmd[9:8]. -/
  | l
  /-- S = cmd[8]. -/
  | s
  /-- IDX = cmd[15:8]. -/
  | i
  /-- DIST = cmd[31:16]. -/
  | d
  /-- START = cmd[16:8], END = cmd[25:17]. -/
  | r
deriving DecidableEq, Repr

/-- Why a command is rejected (R201). Code 0 is OK and no reason; codes 4 to 7 are never produced. -/
inductive ErrorCode where
  /-- 1: `cmd[7:0]` is no opcode of R71 (R72). -/
  | illegalOpcode
  /-- 2: a bit under the row's reserved mask is 1 (R73). -/
  | reservedField
  /-- 3: FILL with START > END or END > 256 (R171). -/
  | fillRange
deriving DecidableEq, Repr

/-- What the host presents for one command: the command word and the data word (R60). -/
structure Command where
  cmd : CommandWord
  din : Limb
deriving DecidableEq, Repr

/-- One line of the assembler: the syntax of R76 and the pseudo-instructions of R78, with the operands as the integers
written in the line. -/
inductive AsmLine where
  | nop
  | rdst
  | clrst
  | popcnt
  | highbit
  | wrv (limb data : Nat)
  | wrb (limb data : Nat)
  | rdv (limb : Nat)
  | rdb (limb : Nat)
  | lshift (d : Nat)
  | rshift (d : Nat)
  | shift (n : Int)
  | get (i : Nat)
  | fill (start stop : Nat)
  | ior (op : OpSel)
  | and (op : OpSel)
  | xor (op : OpSel)
  /-- `.word 0x........`: any command word, also one that has no mnemonic. The line names no data word (log entry 11). -/
  | word (w : Nat)
  /-- Pseudo: V <- 0. -/
  | zero
  /-- Pseudo: V <- all ones. -/
  | ones
  /-- Pseudo: V[i] <- 1. -/
  | setbit (i : Nat)
  /-- Pseudo: V <- (a3, a2, a1, a0). -/
  | ldv (a3 a2 a1 a0 : Nat)
  /-- Pseudo: B <- (a3, a2, a1, a0). -/
  | ldb (a3 a2 a1 a0 : Nat)
  /-- Pseudo: four responses carry L0, L1, L2, L3. -/
  | stv
  /-- Pseudo: V <- B. -/
  | movvb
deriving DecidableEq, Repr

end Sys2Proof
end

