-- ==== Sys2Proof/WellFormed.lean ====
section
/-! DEFINITION. What is well formed. A term of Instr always is: each field has exactly the width R64 gives it, so no
check is left to make on it. Two things are not well formed by their type, and are checked here: a 32-bit word (against
the mask and match of each row of spec/opcode_table.json, R71) and an assembler line (against the operand ranges of R76
and R78). -/

namespace Sys2Proof

/-- One row of spec/opcode_table.json: a word `w` matches it when `w &&& mask = bits` (R71). -/
structure TableRow where
  mnemonic : String
  mask : CommandWord
  bits : CommandWord
deriving DecidableEq, Repr

/-- The 17 rows of spec/opcode_table.json (R71), in the table's order. -/
def opcodeTable : List TableRow := [
  ⟨"NOP", 0xFFFFFFFF#32, 0x00000000#32⟩,
  ⟨"WRV", 0xFFFFFCFF#32, 0x00000001#32⟩,
  ⟨"RDV", 0xFFFFFCFF#32, 0x00000002#32⟩,
  ⟨"WRB", 0xFFFFFCFF#32, 0x00000003#32⟩,
  ⟨"RDB", 0xFFFFFCFF#32, 0x00000004#32⟩,
  ⟨"RDST", 0xFFFFFFFF#32, 0x00000005#32⟩,
  ⟨"CLRST", 0xFFFFFFFF#32, 0x00000006#32⟩,
  ⟨"LSHIFT", 0x0000FFFF#32, 0x00000010#32⟩,
  ⟨"RSHIFT", 0x0000FFFF#32, 0x00000011#32⟩,
  ⟨"SHIFT", 0x0000FFFF#32, 0x00000012#32⟩,
  ⟨"GET", 0xFFFF00FF#32, 0x00000020#32⟩,
  ⟨"POPCNT", 0xFFFFFFFF#32, 0x00000021#32⟩,
  ⟨"HIGHBIT", 0xFFFFFFFF#32, 0x00000022#32⟩,
  ⟨"FILL", 0xFC0000FF#32, 0x00000030#32⟩,
  ⟨"IOR", 0xFFFFFEFF#32, 0x00000040#32⟩,
  ⟨"AND", 0xFFFFFEFF#32, 0x00000041#32⟩,
  ⟨"XOR", 0xFFFFFEFF#32, 0x00000042#32⟩]

/-- The word matches the row (R71). -/
def TableRow.accepts (r : TableRow) (w : CommandWord) : Bool := w &&& r.mask == r.bits

/-- The opcode of the row, its low byte (R65). -/
def TableRow.opc (r : TableRow) : OpcodeByte := r.bits.extractLsb' 0 8

/-- The row's reserved bits: the mask without the opcode byte (R71: mask = 0x000000FF OR reserved mask). -/
def TableRow.reserved (r : TableRow) : CommandWord := r.mask &&& 0xFFFFFF00#32

/-- A well-formed command word: some row of the table accepts it (R71 to R73). FILL bounds outside the legal domain are
well formed as words: their rejection is FILL's own (R76, R171). -/
def wellFormedWord (w : CommandWord) : Bool := opcodeTable.any fun r => r.accepts w

/-- The assembler refuses an operand outside its field width (R76; `setbit` 0..255 and the four limbs of `ldv` and `ldb`,
R78). FILL bounds that fit 9 bits pass. -/
def AsmLine.wellFormed : AsmLine → Bool
  | .wrv limb data | .wrb limb data => decide (limb < 4) && decide (data < 2 ^ 64)
  | .rdv limb | .rdb limb => decide (limb < 4)
  | .lshift d | .rshift d => decide (d < 65536)
  | .shift n => decide (-32768 ≤ n) && decide (n ≤ 32767)
  | .get i | .setbit i => decide (i < 256)
  | .fill start stop => decide (start < 512) && decide (stop < 512)
  | .word w => decide (w < 2 ^ 32)
  | .ldv a3 a2 a1 a0 | .ldb a3 a2 a1 a0 =>
    decide (a3 < 2 ^ 64) && decide (a2 < 2 ^ 64) && decide (a1 < 2 ^ 64) && decide (a0 < 2 ^ 64)
  | .nop | .rdst | .clrst | .popcnt | .highbit | .ior _ | .and _ | .xor _ | .zero | .ones | .stv | .movvb => true

end Sys2Proof
end

