-- ==== Sys2Proof/Decode.lean ====
section
/-! DEFINITION. The decoder of 30_encoding.md (R63 to R73), total on every 32-bit word and rejecting by the error code's
name, and after it the encoder, written from the same encoding tables. -/

namespace Sys2Proof

/-- The numbers of R201. -/
def ErrorCode.code : ErrorCode → EcodeField
  | .illegalOpcode => 1
  | .reservedField => 2
  | .fillRange => 3

/-- OPC = `cmd[7:0]` (R65). -/
def opcField (w : CommandWord) : OpcodeByte := w.extractLsb' 0 8

/-- The opcode map of R71, read from the byte; the 239 other bytes are illegal (R72). -/
def Opcode.ofByte (b : OpcodeByte) : Option Opcode :=
  match b.toNat with
  | 0x00 => some .nop
  | 0x01 => some .wrv
  | 0x02 => some .rdv
  | 0x03 => some .wrb
  | 0x04 => some .rdb
  | 0x05 => some .rdst
  | 0x06 => some .clrst
  | 0x10 => some .lshift
  | 0x11 => some .rshift
  | 0x12 => some .shift
  | 0x20 => some .get
  | 0x21 => some .popcnt
  | 0x22 => some .highbit
  | 0x30 => some .fill
  | 0x40 => some .ior
  | 0x41 => some .and
  | 0x42 => some .xor
  | _ => none

/-- The opcode map of R71, read from the command. -/
def Opcode.byte : Opcode → OpcodeByte
  | .nop => 0x00
  | .wrv => 0x01
  | .rdv => 0x02
  | .wrb => 0x03
  | .rdb => 0x04
  | .rdst => 0x05
  | .clrst => 0x06
  | .lshift => 0x10
  | .rshift => 0x11
  | .shift => 0x12
  | .get => 0x20
  | .popcnt => 0x21
  | .highbit => 0x22
  | .fill => 0x30
  | .ior => 0x40
  | .and => 0x41
  | .xor => 0x42

/-- The Format column of R71. -/
def Opcode.format : Opcode → Format
  | .nop | .rdst | .clrst | .popcnt | .highbit => .n
  | .wrv | .rdv | .wrb | .rdb => .l
  | .lshift | .rshift | .shift => .d
  | .get => .i
  | .fill => .r
  | .ior | .and | .xor => .s

/-- The bits each format reserves (R64; the reserved masks of R71). -/
def Format.reservedMask : Format → CommandWord
  | .n => 0xFFFFFF00#32
  | .l => 0xFFFFFC00#32
  | .s => 0xFFFFFE00#32
  | .i => 0xFFFF0000#32
  | .d => 0x0000FF00#32
  | .r => 0xFC000000#32

/-- LIMB = `cmd[9:8]` (R66). -/
def limbField (w : CommandWord) : LimbIndex := w.extractLsb' 8 2

/-- S = `cmd[8]` (R67): 0 selects B, 1 selects V. -/
def selField (w : CommandWord) : OpSel := if w.getLsbD 8 then .v else .b

/-- IDX = `cmd[15:8]` (R69). -/
def idxField (w : CommandWord) : BitIndex := w.extractLsb' 8 8

/-- DIST = `cmd[31:16]` (R68). -/
def distField (w : CommandWord) : Distance := w.extractLsb' 16 16

/-- START = `cmd[16:8]` (R70). -/
def startField (w : CommandWord) : Bound := w.extractLsb' 8 9

/-- END = `cmd[25:17]` (R70). -/
def endField (w : CommandWord) : Bound := w.extractLsb' 17 9

/-- The command with its operand fields read from the word (R64 to R70). -/
def Opcode.operands (op : Opcode) (w : CommandWord) : Instr :=
  match op with
  | .nop => .nop
  | .wrv => .wrv (limbField w)
  | .rdv => .rdv (limbField w)
  | .wrb => .wrb (limbField w)
  | .rdb => .rdb (limbField w)
  | .rdst => .rdst
  | .clrst => .clrst
  | .lshift => .lshift (distField w)
  | .rshift => .rshift (distField w)
  | .shift => .shift (distField w)
  | .get => .get (idxField w)
  | .popcnt => .popcnt
  | .highbit => .highbit
  | .fill => .fill (startField w) (endField w)
  | .ior => .ior (selField w)
  | .and => .and (selField w)
  | .xor => .xor (selField w)

/-- The decoder: an unlisted opcode is ILLEGAL_OPCODE whatever the other bits hold (R72), a listed one with a nonzero
reserved bit is RESERVED_FIELD (R73), in this order (R74, R204). -/
def decode (w : CommandWord) : Except ErrorCode Instr :=
  match Opcode.ofByte (opcField w) with
  | none => .error .illegalOpcode
  | some op => if w &&& op.format.reservedMask = 0 then .ok (op.operands w) else .error .reservedField

/-- The decoder on the first `nbits` bits of `w`, numbered as spec/opcode_table.json numbers them: a command is one
32-bit word (R63), so the bits above `nbits` are 0 and a number that needs more than 32 bits is no command. -/
def decodeTableWord (nbits w : Nat) : Option Instr :=
  if w % 2 ^ nbits < 2 ^ 32 then (decode (BitVec.ofNat 32 (w % 2 ^ nbits))).toOption else none

/-- The command an instruction is a form of. -/
def Instr.opcode : Instr → Opcode
  | .nop => .nop
  | .wrv _ => .wrv
  | .rdv _ => .rdv
  | .wrb _ => .wrb
  | .rdb _ => .rdb
  | .rdst => .rdst
  | .clrst => .clrst
  | .lshift _ => .lshift
  | .rshift _ => .rshift
  | .shift _ => .shift
  | .get _ => .get
  | .popcnt => .popcnt
  | .highbit => .highbit
  | .fill _ _ => .fill
  | .ior _ => .ior
  | .and _ => .and
  | .xor _ => .xor

/-- The bit S of an operand select (R67). -/
def OpSel.bit : OpSel → BitVec 1
  | .b => 0
  | .v => 1

/-- Format N of R64. -/
def encodeN (opc : OpcodeByte) : CommandWord := 0#24 ++ opc

/-- Format L of R64. -/
def encodeL (limb : LimbIndex) (opc : OpcodeByte) : CommandWord := 0#22 ++ limb ++ opc

/-- Format S of R64. -/
def encodeS (sel : OpSel) (opc : OpcodeByte) : CommandWord := 0#23 ++ sel.bit ++ opc

/-- Format I of R64. -/
def encodeI (idx : BitIndex) (opc : OpcodeByte) : CommandWord := 0#16 ++ idx ++ opc

/-- Format D of R64. -/
def encodeD (dist : Distance) (opc : OpcodeByte) : CommandWord := dist ++ 0#8 ++ opc

/-- Format R of R64. -/
def encodeR (start stop : Bound) (opc : OpcodeByte) : CommandWord := 0#6 ++ stop ++ start ++ opc

/-- The command word of an instruction (R64, R71). -/
def encode (i : Instr) : CommandWord :=
  match i with
  | .nop | .rdst | .clrst | .popcnt | .highbit => encodeN i.opcode.byte
  | .wrv limb | .rdv limb | .wrb limb | .rdb limb => encodeL limb i.opcode.byte
  | .lshift dist | .rshift dist | .shift dist => encodeD dist i.opcode.byte
  | .get idx => encodeI idx i.opcode.byte
  | .fill start stop => encodeR start stop i.opcode.byte
  | .ior op | .and op | .xor op => encodeS op i.opcode.byte

end Sys2Proof
end

