-- ==== Sys2Proof/Machine/State.lean ====
section
/-! DEFINITION. The state of the mem256 CORE as plain data: the spec's architectural record (10_state.md section 6), the
registered response and the levels at the input ports (30_encoding.md R61, R62), and the two fields that are the model's
own (the host's coming inputs and the counter of free values); the reasons a step could stop; the state after reset. -/

namespace Sys2Proof.Machine

/-- The levels the host drives at the input ports in one clock cycle (R61). -/
structure Pins where
  /-- Synchronous reset, active high (R240). -/
  rst : Bool
  /-- The host presents a command this cycle (R62). -/
  cmdValid : Bool
  /-- The command word, sampled at the accepting edge. -/
  cmd : CommandWord
  /-- The data word, sampled at the accepting edge and used only by WRV and WRB (R75). -/
  din : Limb
deriving DecidableEq, Repr

/-- The state between two rising edges of `clk`. -/
structure State where
  /-- The value register V (R20). -/
  v : Value
  /-- The operand register B (R21). -/
  b : Value
  /-- STATUS.RES, STATUS[8:0] (R25, R27). -/
  res : ResField
  /-- STATUS.LOSS, STATUS[9] (R25, R26). -/
  loss : Bool
  /-- STATUS.ECODE, STATUS[12:10] (R25, R28). -/
  ecode : EcodeField
  /-- STATUS.STICKY, STATUS[13] (R25, R29). -/
  sticky : Bool
  /-- Output `rsp_valid`: the command presented at the previous edge was accepted (R61, R62). -/
  rspValid : Bool
  /-- Output `dout`: the response where `rspValid` holds (R79), a free value where it does not (log entry 3). -/
  dout : Limb
  /-- The input levels of the present cycle, which the next edge samples (R61, R62). -/
  pins : Pins
  /-- The model's own: the input levels of the coming cycles, the next one first (log entries 1 and 2). -/
  schedule : List Pins
  /-- The model's own: which free value comes next (log entry 3). -/
  freeIndex : Nat
deriving DecidableEq, Repr

/-- Why the machine would stop with a fault. It has NO constructor: the block never traps (R200) and every command
finishes (R247), so nobody raises a fault. Log entry 6. -/
inductive Fault where
deriving DecidableEq, Repr

/-- Why something is refused. No step of the machine ever refuses (R247). -/
inductive Refusal where
  /-- An instruction whose meaning is not written. Raised by an arm of `exec` only, and by none in this model. Safe. -/
  | notModelled (mnemonic : String)
  /-- `State.launch` was given an ECODE of 4 to 7, which the block never produces (U9). No step raises it. Safe. -/
  | launchEcode
  /-- `State.launch` was given a RES above 256, which the block never produces (U11). No step raises it. Safe. -/
  | launchRes
deriving DecidableEq, Repr

/-- The input levels of a cycle in which the host does nothing: no reset, no command (R62). The levels of `cmd` and `din`
are then not sampled. DESIGN CHOICE: both 0 (log entry 2). -/
def Pins.idle : Pins := { rst := false, cmdValid := false, cmd := 0, din := 0 }

/-- The machine right after reset: V, B and every field of STATUS are 0 (R241) and `rsp_valid` is 0 (R240). `dout` is
unspecified there, and the input levels are the host's: DESIGN CHOICE 0, idle, nothing scheduled (log entry 4). -/
def State.reset : State where
  v := ⟨0, 0, 0, 0⟩
  b := ⟨0, 0, 0, 0⟩
  res := 0
  loss := false
  ecode := 0
  sticky := false
  rspValid := false
  dout := 0
  pins := Pins.idle
  schedule := []
  freeIndex := 0

end Sys2Proof.Machine
end

