-- ==== Sys2Proof/Machine/Flags.lean ====
section
/-! DEFINITION. The status register and the flag computations: the layout of STATUS (10_state.md R25 and section 6) and
the loss flag of a left and of a right shift (41_shift.md R122, R124). -/

namespace Sys2Proof.Machine

/-- STATUS = `zext_64(STICKY ++ ECODE ++ LOSS ++ RES)` (10_state.md section 6, R25). Bits 63:14 are 0 (R30). -/
def statusOf (res : ResField) (loss : Bool) (ecode : EcodeField) (sticky : Bool) : Limb :=
  (BitVec.ofBool sticky ++ ecode ++ BitVec.ofBool loss ++ res).zeroExtend 64

/-- The STATUS word of a state. -/
def State.statusWord (s : State) : Limb := statusOf s.res s.loss s.ecode s.sticky

/-- `LOSSL(X, d)`, the overflow of a left shift by d = 64 k + s, by limbs (R122): one of the k top limbs, or the top s bits
of limb 3 - k, holds a 1. -/
def lossLeft (x : Value) (d : Nat) : Bool :=
  let s := d % 64
  let k := d / 64
  let whole := (List.range 4).any fun m => decide (4 - k ≤ m) && x.limbAt m != 0
  let part := s != 0 && x.limbAt (3 - k) >>> (64 - s) != 0
  whole || part

/-- `LOSSR(X, d)`, the underflow of a right shift by d = 64 k + s, by limbs (R124): one of the k bottom limbs, or the low
s bits of limb k, holds a 1. -/
def lossRight (x : Value) (d : Nat) : Bool :=
  let s := d % 64
  let k := d / 64
  let whole := (List.range 4).any fun m => decide (m < k) && x.limbAt m != 0
  let part := s != 0 && x.limbAt k &&& BitVec.ofNat 64 (2 ^ s - 1) != 0
  whole || part

end Sys2Proof.Machine
end

