-- ==== Sys2Proof/Machine/Ops.lean ====
section
/-! DEFINITION. The named operations over State: one update per register, the response, the end of an accepted command,
and the rejection of a command, which is this block's counterpart of taking an exception (60_exceptions.md R200, R203);
it has no return (R207). -/

namespace Sys2Proof.Machine

/-- `V <- x` (R20). -/
def State.setV (s : State) (x : Value) : State := { s with v := x }

/-- `B <- x` (R21). -/
def State.setB (s : State) (x : Value) : State := { s with b := x }

/-- `STATUS.RES <- r` (R27). -/
def State.setRes (s : State) (r : ResField) : State := { s with res := r }

/-- `STATUS.LOSS <- f` (R26). -/
def State.setLoss (s : State) (f : Bool) : State := { s with loss := f }

/-- `STATUS.ECODE <- e` (R28). -/
def State.setEcode (s : State) (e : EcodeField) : State := { s with ecode := e }

/-- `STATUS.STICKY <- f` (R29). -/
def State.setSticky (s : State) (f : Bool) : State := { s with sticky := f }

/-- Registers the response `d`: in the next cycle `rsp_valid` is 1 and `dout` is d (R62). -/
def State.respond (s : State) (d : Limb) : State := { s with rspValid := true, dout := d }

/-- The response of every command but RDV and RDB: STATUS as it stands after the command (R79). -/
def State.respondStatus (s : State) : State := s.respond s.statusWord

/-- `reject(s, e)` (R74, R203): ECODE <- e, STICKY <- 1, the response is STATUS after both writes. Nothing else changes. -/
def State.reject (s : State) (e : ErrorCode) : State := ((s.setEcode e.code).setSticky true).respondStatus

/-- The end of an accepted command that is not RDST, RDV or RDB: ECODE <- 0, the response is STATUS (R74, R79). -/
def State.accept (s : State) : State := (s.setEcode 0).respondStatus

/-- The end of an accepted RDV or RDB: ECODE <- 0, the response is the limb read before the command (R74, R79). -/
def State.acceptRead (s : State) (d : Limb) : State := (s.setEcode 0).respond d

/-- No response: `rsp_valid` is 0 in the next cycle and `dout` is a free value (R62, R240; log entry 3). -/
def State.noResponse (s : State) : State :=
  { s with rspValid := false, dout := Config.idleDout s.freeIndex, freeIndex := s.freeIndex + 1 }

end Sys2Proof.Machine
end

