-- ==== Sys2Proof/Machine/Operands.lean ====
section
/-! DEFINITION. The operand forms of the commands: the limb a LIMB field selects (20_memory.md R41), the operand an S bit
selects (44_bitwise.md R180), the reduced unsigned distance (41_shift.md R120), the signed distance (R127), and the legal
FILL bounds (43_fill.md R170). -/

namespace Sys2Proof.Machine

/-- The limb of X that LIMB selects (R41, R66). -/
def limbOperand (x : Value) (limb : LimbIndex) : Limb := x.limbAt limb.toNat

/-- X with the limb that LIMB selects written (R41, R43, R66). -/
def writeLimb (x : Value) (limb : LimbIndex) (d : Limb) : Value := x.setLimb limb.toNat d

/-- The operand `op` of IOR, AND and XOR: S = 0 selects B, S = 1 selects V itself (R67, R180). -/
def State.selected (s : State) (op : OpSel) : Value :=
  match op with
  | .b => s.b
  | .v => s.v

/-- `m & 255` (R120), for the distance of every shift. -/
def reduceDistance (m : Nat) : Nat := m &&& Config.dmask

/-- The distance of LSHIFT and RSHIFT: DIST read unsigned and reduced (R68, R120). -/
def unsignedDistance (dist : Distance) : Nat := reduceDistance dist.toNat

/-- `sint_16(DIST)`, the distance of SHIFT: two's complement (R9, R68, R127). -/
def signedDistance (dist : Distance) : Int := dist.toInt

/-- `fill_ok(start, end)` (R170). -/
def fillOk (start stop : Nat) : Bool := decide (start ≤ stop) && decide (stop ≤ 256)

end Sys2Proof.Machine
end

