-- ==== Sys2Proof/Machine/BitQuery.lean ====
section
/-! DEFINITION. Bit query operations (42_query.md): GET, POPCNT, HIGHBIT. They read V and write RES and ECODE (R150). -/

namespace Sys2Proof.Machine

/-- The set bits of V: the sum of the four limbs' counts (R152). -/
def popcount (x : Value) : Nat :=
  popcountBits x.l0 + popcountBits x.l1 + popcountBits x.l2 + popcountBits x.l3

/-- The highest set bit among the bits below n of a limb, scanning downwards; none where they are all 0 (R153). -/
def topBitBelow (l : Limb) : Nat → Option Nat
  | 0 => none
  | n + 1 => if l.getLsbD n then some n else topBitBelow l n

/-- The scan of R153 over the limbs below m, from the most significant down: `64 * j + p + 1` for the first nonzero limb
j and its highest set bit p, and 0 where every limb is zero. -/
def bitLengthBelow (x : Value) : Nat → Nat
  | 0 => 0
  | m + 1 =>
    match topBitBelow (x.limbAt m) 64 with
    | some p => 64 * m + p + 1
    | none => bitLengthBelow x m

/-- The bit length of V (R153). -/
def bitLength (x : Value) : Nat := bitLengthBelow x 4

/-- GET (R151). -/
def execGet (idx : BitIndex) (s : State) : Host.Outcome State Fault Refusal :=
  .next (s.setRes ((BitVec.ofBool (s.v.bit idx.toNat)).zeroExtend 9)).accept

/-- POPCNT (R152). -/
def execPopcnt (s : State) : Host.Outcome State Fault Refusal :=
  .next (s.setRes (BitVec.ofNat 9 (popcount s.v))).accept

/-- HIGHBIT (R153). -/
def execHighbit (s : State) : Host.Outcome State Fault Refusal :=
  .next (s.setRes (BitVec.ofNat 9 (bitLength s.v))).accept

end Sys2Proof.Machine
end

