-- ==== Sys2Proof/Machine/Bitwise.lean ====
section
/-! DEFINITION. Bitwise combinators (44_bitwise.md): IOR, AND, XOR, four independent lanes of 64 bits, one per limb. Both
operands are read before V is written (R180). -/

namespace Sys2Proof.Machine

/-- The lane-wise combination of two values: limb j of the result is `f` of the two limbs j (R181 to R183). -/
def laneWise (f : Limb → Limb → Limb) (x y : Value) : Value := Value.ofLimbs fun j => f (x.limbAt j) (y.limbAt j)

/-- IOR (R181). -/
def execIor (op : OpSel) (s : State) : Host.Outcome State Fault Refusal :=
  .next (s.setV (laneWise (fun x y => x ||| y) s.v (s.selected op))).accept

/-- AND (R182). -/
def execAnd (op : OpSel) (s : State) : Host.Outcome State Fault Refusal :=
  .next (s.setV (laneWise (fun x y => x &&& y) s.v (s.selected op))).accept

/-- XOR (R183). -/
def execXor (op : OpSel) (s : State) : Host.Outcome State Fault Refusal :=
  .next (s.setV (laneWise (fun x y => x ^^^ y) s.v (s.selected op))).accept

end Sys2Proof.Machine
end

