-- ==== Sys2Proof/Machine/RangeFill.lean ====
section
/-! DEFINITION. Range fill (43_fill.md): the mask of a half-open bit range and the command FILL. -/

namespace Sys2Proof.Machine

/-- Limb j of `FILLMASK(start, end)` (R170): the part of [start, end) that falls into bits 64 j to 64 j + 63. -/
def fillMaskLimb (start stop j : Nat) : Limb :=
  let lo := 64 * j
  let hi := 64 * j + 64
  let a := max start lo
  let b := min stop hi
  if a < b then BitVec.ofNat 64 (2 ^ (b - a) - 1) <<< (a - lo) else 0

/-- `FILLMASK(start, end)` (R170). -/
def fillMask (start stop : Nat) : Value := Value.ofLimbs (fillMaskLimb start stop)

/-- `X | Y`, limb by limb. -/
def orMask (x y : Value) : Value := Value.ofLimbs fun j => x.limbAt j ||| y.limbAt j

/-- FILL (R171): bounds that are not legal reject the command with FILL_RANGE (R74, R201, R204), V unchanged. -/
def execFill (start stop : Bound) (s : State) : Host.Outcome State Fault Refusal :=
  if fillOk start.toNat stop.toNat then
    .next (s.setV (orMask s.v (fillMask start.toNat stop.toNat))).accept
  else
    .next (s.reject .fillRange)

end Sys2Proof.Machine
end

