-- ==== Sys2Proof/Machine/ShiftEngine.lean ====
section
/-! DEFINITION. The shift engine (41_shift.md): the limb-wise shifts LSH and RSH and the commands LSHIFT, RSHIFT, SHIFT.
Every result is computed from the value V held before the command (R128). -/

namespace Sys2Proof.Machine

/-- `LSH(X, d)` by limbs, d = 64 k + s (R121): a whole-limb move by k, an in-limb shift by s, and, where s is not 0, the
top s bits of the limb below. -/
def lsh (x : Value) (d : Nat) : Value :=
  let s := d % 64
  let k := d / 64
  Value.ofLimbs fun j =>
    let a := if k ≤ j then x.limbAt (j - k) <<< s else 0
    let c := if s ≠ 0 ∧ k + 1 ≤ j then x.limbAt (j - k - 1) >>> (64 - s) else 0
    a ||| c

/-- `RSH(X, d)` by limbs, d = 64 k + s (R123), the mirror of `lsh`. -/
def rsh (x : Value) (d : Nat) : Value :=
  let s := d % 64
  let k := d / 64
  Value.ofLimbs fun j =>
    let a := if j + k ≤ 3 then x.limbAt (j + k) >>> s else 0
    let c := if s ≠ 0 ∧ j + k + 1 ≤ 3 then x.limbAt (j + k + 1) <<< (64 - s) else 0
    a ||| c

/-- V and LOSS after a left shift of V by d (R125, R128). -/
def State.shiftLeft (s : State) (d : Nat) : State := (s.setV (lsh s.v d)).setLoss (lossLeft s.v d)

/-- V and LOSS after a right shift of V by d (R126, R128). -/
def State.shiftRight (s : State) (d : Nat) : State := (s.setV (rsh s.v d)).setLoss (lossRight s.v d)

/-- LSHIFT (R125). -/
def execLshift (dist : Distance) (s : State) : Host.Outcome State Fault Refusal :=
  .next (s.shiftLeft (unsignedDistance dist)).accept

/-- RSHIFT (R126). -/
def execRshift (dist : Distance) (s : State) : Host.Outcome State Fault Refusal :=
  .next (s.shiftRight (unsignedDistance dist)).accept

/-- SHIFT (R127): n = 0 writes LOSS <- 0, n > 0 shifts left by n & 255, n < 0 shifts right by (-n) & 255, with -n exact. -/
def execShift (dist : Distance) (s : State) : Host.Outcome State Fault Refusal :=
  let n := signedDistance dist
  if n = 0 then .next (s.setLoss false).accept
  else if 0 < n then .next (s.shiftLeft (reduceDistance n.toNat)).accept
  else .next (s.shiftRight (reduceDistance (-n).toNat)).accept

end Sys2Proof.Machine
end

