-- ==== Sys2Proof/Machine/ValueAccess.lean ====
section
/-! DEFINITION. Value access, status and system commands (40_value_access.md): NOP, WRV, RDV, WRB, RDB, RDST, CLRST. -/

namespace Sys2Proof.Machine

/-- NOP (R103). -/
def execNop (s : State) : Host.Outcome State Fault Refusal :=
  .next s.accept

/-- WRV (R104). -/
def execWrv (limb : LimbIndex) (s : State) : Host.Outcome State Fault Refusal :=
  .next (s.setV (writeLimb s.v limb s.pins.din)).accept

/-- RDV (R105). -/
def execRdv (limb : LimbIndex) (s : State) : Host.Outcome State Fault Refusal :=
  .next (s.acceptRead (limbOperand s.v limb))

/-- WRB (R106). -/
def execWrb (limb : LimbIndex) (s : State) : Host.Outcome State Fault Refusal :=
  .next (s.setB (writeLimb s.b limb s.pins.din)).accept

/-- RDB (R107). -/
def execRdb (limb : LimbIndex) (s : State) : Host.Outcome State Fault Refusal :=
  .next (s.acceptRead (limbOperand s.b limb))

/-- RDST (R108): the one accepted command that does not write ECODE. -/
def execRdst (s : State) : Host.Outcome State Fault Refusal :=
  .next s.respondStatus

/-- CLRST (R109). -/
def execClrst (s : State) : Host.Outcome State Fault Refusal :=
  .next ((((s.setRes 0).setLoss false).setEcode 0).setSticky false).accept

end Sys2Proof.Machine
end

