-- ==== Sys2Proof/Machine/Dispatch.lean ====
section
/-! DEFINITION. The dispatch: one arm per command, each one call of that command's own meaning. -/

namespace Sys2Proof.Machine

def exec (i : Instr) (s : State) : Host.Outcome State Fault Refusal :=
  match i with
  | .nop => Sys2Proof.Machine.execNop s
  | .wrv limb => Sys2Proof.Machine.execWrv limb s
  | .rdv limb => Sys2Proof.Machine.execRdv limb s
  | .wrb limb => Sys2Proof.Machine.execWrb limb s
  | .rdb limb => Sys2Proof.Machine.execRdb limb s
  | .rdst => Sys2Proof.Machine.execRdst s
  | .clrst => Sys2Proof.Machine.execClrst s
  | .lshift dist => Sys2Proof.Machine.execLshift dist s
  | .rshift dist => Sys2Proof.Machine.execRshift dist s
  | .shift dist => Sys2Proof.Machine.execShift dist s
  | .get idx => Sys2Proof.Machine.execGet idx s
  | .popcnt => Sys2Proof.Machine.execPopcnt s
  | .highbit => Sys2Proof.Machine.execHighbit s
  | .fill start stop => Sys2Proof.Machine.execFill start stop s
  | .ior op => Sys2Proof.Machine.execIor op s
  | .and op => Sys2Proof.Machine.execAnd op s
  | .xor op => Sys2Proof.Machine.execXor op s

end Sys2Proof.Machine
end

