-- ==== Sys2Proof/Machine/Port.lean ====
section
/-! DEFINITION. The ports (30_encoding.md R61, R62) and what surrounds a command at a clock edge: the host's next input
levels, the reset edge (70_reset_and_hazards.md R240, R241), the idle edge, and the states a run may start from (R242). -/

namespace Sys2Proof.Machine

/-- Output `cmd_ready`: equals NOT rst (R61, R240). -/
def State.cmdReady (s : State) : Bool := !s.pins.rst

/-- A command is accepted at the next edge: `rst = 0` and `cmd_valid = 1` (R62). -/
def State.accepting (s : State) : Bool := !s.pins.rst && s.pins.cmdValid

/-- After the edge the host drives the next levels of its schedule, and none where the schedule has run out (log entry 2). -/
def State.advance (s : State) : State :=
  { s with pins := s.schedule.head?.getD Pins.idle, schedule := s.schedule.tail }

/-- Every field of the architectural state is 0 (R241). -/
def State.clearAll (s : State) : State :=
  { s with v := Value.zero, b := Value.zero, res := 0, loss := false, ecode := 0, sticky := false }

/-- A rising edge with `rst = 1`: every field 0, no response, the presented command discarded without effect (R240). -/
def State.resetEdge (s : State) : State := s.clearAll.noResponse.advance

/-- A rising edge with `rst = 0` and `cmd_valid = 0`: no state changes, no response (R62, R213). -/
def State.idleEdge (s : State) : State := s.noResponse.advance

/-- The levels at the input ports while the host presents a command (R62). -/
def commandPins (c : Command) : Pins := { rst := false, cmdValid := true, cmd := c.cmd, din := c.din }

/-- `s` with the command word `w` presented at the command port; `din` and the schedule stay. -/
def State.presentWord (s : State) (w : CommandWord) : State :=
  { s with pins := { s.pins with rst := false, cmdValid := true, cmd := w } }

/-- `s` with the commands `cs` as the host's whole coming input, one per cycle, the first one presented now (R62, R246).
This is how a program is given to the machine (log entry 1). -/
def State.present (s : State) (cs : List Command) : State :=
  match cs with
  | [] => { s with pins := Pins.idle, schedule := [] }
  | c :: rest => { s with pins := commandPins c, schedule := rest.map commandPins }

/-- The machine at power-up, before the first reset: V, B and the fields of STATUS hold any values `v b res loss ecode
sticky` (R242, the OPEN parameter `pre_reset_state` of D26), and so does the response; STATUS[63:14] is 0 even then (R30).
The free values are arguments, so nothing is chosen. Log entry 5. -/
def State.powerUp (v b : Value) (res : ResField) (loss : Bool) (ecode : EcodeField) (sticky rspValid : Bool)
    (dout : Limb) (pins : Pins) (schedule : List Pins) : State :=
  { v, b, res, loss, ecode, sticky, rspValid, dout, pins, schedule, freeIndex := 0 }

/-- A run that starts in `s` without a reset: an ECODE of 4 to 7 (U9) or a RES above 256 (U11) is never produced and is
refused as a launch state. Log entry 5. -/
def State.launch (s : State) : Host.Outcome State Fault Refusal :=
  if 3 < s.ecode.toNat then .refused .launchEcode
  else if 256 < s.res.toNat then .refused .launchRes
  else .next s

end Sys2Proof.Machine
end

