-- ==== Sys2Proof/Machine/Clock.lean ====
section
/-! DEFINITION. One rising edge of `clk` (30_encoding.md R62, R74; 70_reset_and_hazards.md R240). -/

namespace Sys2Proof.Machine

/-- An outcome whose next state moves on to the host's next input levels. -/
def advanceOutcome (o : Host.Outcome State Fault Refusal) : Host.Outcome State Fault Refusal :=
  match o with
  | .next t => .next t.advance
  | .fault r => .fault r
  | .refused r => .refused r

/-- The command step of R74 on the presented command: an illegal opcode and a nonzero reserved field are rejected, in that
order; otherwise the command's own meaning runs (which, for FILL, checks the range). -/
def commandStep (s : State) : Host.Outcome State Fault Refusal :=
  match decode s.pins.cmd with
  | .error e => .next (s.reject e)
  | .ok i => exec i s

/-- One rising edge: reset wins over a command (R240); an accepted command performs its whole step (R62, R74); otherwise
nothing changes (R62). -/
def clockEdge (s : State) : Host.Outcome State Fault Refusal :=
  if s.pins.rst then .next s.resetEdge
  else if s.pins.cmdValid then advanceOutcome (commandStep s)
  else .next s.idleEdge

end Sys2Proof.Machine
end

