-- ==== Sys2Proof/Machine/Step.lean ====
section
/-! DEFINITION. One step of the machine, which is one rising edge of `clk`, and the state in which a given command word is
presented to the next step. -/

namespace Sys2Proof.Machine

/-- One step (log entry 1). -/
def step (s : State) : Host.Outcome State Fault Refusal := clockEdge s

/-- `s` with the command word whose bits are `w` (the bits above `nbits` 0) presented at the command port, so that the
next step accepts it. The block fetches nothing (R22, R52): this stands for the host presenting a command (log entry 1). -/
def State.withFetchWord (s : State) (nbits w : Nat) : State := s.presentWord (BitVec.ofNat 32 (w % 2 ^ nbits))

end Sys2Proof.Machine
end

