-- ==== Sys2Proof/Machine/Assembler.lean ====
section
/-! DEFINITION. The assembler of 30_encoding.md R76 to R78: from a line (as text, or as a term of AsmLine) to the commands
it stands for. -/

namespace Sys2Proof

/-- The command of an instruction that ignores `din` (R75). DESIGN CHOICE: the assembler gives it the `din` 0 (log entry
8). -/
def Instr.command (i : Instr) : Command := { cmd := encode i, din := 0 }

/-- The command of an instruction with its data word (WRV, WRB). -/
def Instr.commandWith (i : Instr) (data : Nat) : Command := { cmd := encode i, din := BitVec.ofNat 64 data }

/-- The commands a line stands for: one for the syntax of R76, the expansion for a pseudo-instruction (R78). The spec names
no data word for a `.word` line. DESIGN CHOICE: its `din` is 0, also where the word is a WRV or a WRB, which then writes 0
(log entry 11). -/
def AsmLine.commands : AsmLine → List Command
  | .nop => [Instr.nop.command]
  | .rdst => [Instr.rdst.command]
  | .clrst => [Instr.clrst.command]
  | .popcnt => [Instr.popcnt.command]
  | .highbit => [Instr.highbit.command]
  | .wrv limb data => [(Instr.wrv (BitVec.ofNat 2 limb)).commandWith data]
  | .wrb limb data => [(Instr.wrb (BitVec.ofNat 2 limb)).commandWith data]
  | .rdv limb => [(Instr.rdv (BitVec.ofNat 2 limb)).command]
  | .rdb limb => [(Instr.rdb (BitVec.ofNat 2 limb)).command]
  | .lshift d => [(Instr.lshift (BitVec.ofNat 16 d)).command]
  | .rshift d => [(Instr.rshift (BitVec.ofNat 16 d)).command]
  | .shift n => [(Instr.shift (BitVec.ofInt 16 n)).command]
  | .get i => [(Instr.get (BitVec.ofNat 8 i)).command]
  | .fill start stop => [(Instr.fill (BitVec.ofNat 9 start) (BitVec.ofNat 9 stop)).command]
  | .ior op => [(Instr.ior op).command]
  | .and op => [(Instr.and op).command]
  | .xor op => [(Instr.xor op).command]
  | .word w => [{ cmd := BitVec.ofNat 32 w, din := 0 }]
  | .zero => [(Instr.xor .v).command]
  | .ones => [(Instr.fill 0 256).command]
  | .setbit i => [(Instr.fill (BitVec.ofNat 9 i) (BitVec.ofNat 9 (i + 1))).command]
  | .ldv a3 a2 a1 a0 =>
    [(Instr.wrv 0).commandWith a0, (Instr.wrv 1).commandWith a1, (Instr.wrv 2).commandWith a2, (Instr.wrv 3).commandWith a3]
  | .ldb a3 a2 a1 a0 =>
    [(Instr.wrb 0).commandWith a0, (Instr.wrb 1).commandWith a1, (Instr.wrb 2).commandWith a2, (Instr.wrb 3).commandWith a3]
  | .stv => [(Instr.rdv 0).command, (Instr.rdv 1).command, (Instr.rdv 2).command, (Instr.rdv 3).command]
  | .movvb => [(Instr.xor .v).command, (Instr.ior .b).command]

/-- The assembler on one line: an operand outside its field width is refused (R76). -/
def AsmLine.assemble (l : AsmLine) : Option (List Command) := if l.wellFormed then some l.commands else none

/-- The value of a digit of a number in base 10 or 16. -/
def digitValue (base : Nat) (c : Char) : Option Nat :=
  let n := c.toNat
  let d :=
    if 48 ≤ n ∧ n ≤ 57 then n - 48
    else if 97 ≤ n ∧ n ≤ 102 then n - 87
    else if 65 ≤ n ∧ n ≤ 70 then n - 55
    else base
  if d < base then some d else none

/-- The digits `cs` of a number in base `base`, after the digits whose value is `acc`. -/
def digitsFrom (base : Nat) (acc : Nat) : List Char → Option Nat
  | [] => some acc
  | c :: cs =>
    match digitValue base c with
    | some d => digitsFrom base (acc * base + d) cs
    | none => none

/-- An operand without sign: decimal, or `0x` and hexadecimal digits (R76). -/
def parseNat : List Char → Option Nat
  | [] => none
  | '0' :: 'x' :: c :: cs => digitsFrom 16 0 (c :: cs)
  | c :: cs => digitsFrom 10 0 (c :: cs)

/-- An operand that may begin with a minus sign (`shift -1`, R77). -/
def parseInt : List Char → Option Int
  | '-' :: cs => (parseNat cs).map fun n => -(n : Int)
  | cs => (parseNat cs).map Int.ofNat

/-- The operand of IOR, AND and XOR (R76): `b` or `v`. -/
def parseSel : List Char → Option OpSel
  | ['b'] => some .b
  | ['v'] => some .v
  | _ => none

/-- The words of a line up to its comment, which a `;` begins (R76). Spaces and tabs separate words, and a comma is a word
of its own. DESIGN CHOICE: the spec does not say what white space a line may hold (log entry 8). -/
def lineWords (word : List Char) : List Char → List (List Char)
  | [] => if word.isEmpty then [] else [word]
  | c :: cs =>
    if c = ';' then (if word.isEmpty then [] else [word])
    else if c = ' ' ∨ c = '\t' then (if word.isEmpty then lineWords [] cs else word :: lineWords [] cs)
    else if c = ',' then (if word.isEmpty then [','] :: lineWords [] cs else word :: [','] :: lineWords [] cs)
    else lineWords (word ++ [c]) cs

/-- The operands of a line: words separated by single commas. -/
def operandWords : List (List Char) → Option (List (List Char))
  | [] => some []
  | [w] => if w = [','] then none else some [w]
  | w :: c :: rest =>
    if w ≠ [','] ∧ c = [','] ∧ rest ≠ [] then (operandWords rest).map fun ws => w :: ws else none

/-- A line with no operand. -/
def parseNullary (name : List Char) : Option AsmLine :=
  if name = "nop".toList then some .nop
  else if name = "rdst".toList then some .rdst
  else if name = "clrst".toList then some .clrst
  else if name = "popcnt".toList then some .popcnt
  else if name = "highbit".toList then some .highbit
  else if name = "zero".toList then some .zero
  else if name = "ones".toList then some .ones
  else if name = "stv".toList then some .stv
  else if name = "movvb".toList then some .movvb
  else none

/-- A line with one operand. -/
def parseUnary (name : List Char) (x : List Char) : Option AsmLine :=
  if name = "rdv".toList then (parseNat x).map .rdv
  else if name = "rdb".toList then (parseNat x).map .rdb
  else if name = "lshift".toList then (parseNat x).map .lshift
  else if name = "rshift".toList then (parseNat x).map .rshift
  else if name = "shift".toList then (parseInt x).map .shift
  else if name = "get".toList then (parseNat x).map .get
  else if name = "ior".toList then (parseSel x).map .ior
  else if name = "and".toList then (parseSel x).map .and
  else if name = "xor".toList then (parseSel x).map .xor
  else if name = ".word".toList then (parseNat x).map .word
  else if name = "setbit".toList then (parseNat x).map .setbit
  else none

/-- A line with two operands. -/
def parseBinary (name : List Char) (x y : Nat) : Option AsmLine :=
  if name = "wrv".toList then some (.wrv x y)
  else if name = "wrb".toList then some (.wrb x y)
  else if name = "fill".toList then some (.fill x y)
  else none

/-- A line with four operands. -/
def parseQuaternary (name : List Char) (a3 a2 a1 a0 : Nat) : Option AsmLine :=
  if name = "ldv".toList then some (.ldv a3 a2 a1 a0)
  else if name = "ldb".toList then some (.ldb a3 a2 a1 a0)
  else none

/-- A line of text as a term of AsmLine (R76, R78: lower-case mnemonics); none where the text is no such line, a line
that holds only a comment among them. -/
def parseLine (text : String) : Option AsmLine :=
  match lineWords [] text.toList with
  | [] => none
  | name :: rest =>
    match operandWords rest with
    | some [] => parseNullary name
    | some [x] => parseUnary name x
    | some [x, y] => (parseNat x).bind fun a => (parseNat y).bind fun b => parseBinary name a b
    | some [x3, x2, x1, x0] =>
      (parseNat x3).bind fun a3 => (parseNat x2).bind fun a2 => (parseNat x1).bind fun a1 =>
        (parseNat x0).bind fun a0 => parseQuaternary name a3 a2 a1 a0
    | _ => none

/-- The assembler on a line of text (R76 to R78). -/
def assembleText (text : String) : Option (List Command) := (parseLine text).bind AsmLine.assemble

end Sys2Proof
end

