-- ==== Sys2Proof/Machine/Numeric.lean ====
section
/-! DEFINITION. A second reading of the machine, on 256-bit numbers instead of limbs: the numeric and bit-by-bit
definitions that the spec gives beside the limb-wise ones (R8, R121 to R124, R152, R153, R170), the command step of R74 as
a function from (state, cmd, din) to (state, dout), and one edge of the clock. Statements hold the limb-wise machine
against this one; no meaning calls it. -/

namespace Sys2Proof.Machine

/-- The state of 10_state.md section 6, on numbers: V and B as 256-bit words, RES and ECODE as natural numbers. -/
structure NumState where
  v : BitVec 256
  b : BitVec 256
  res : Nat
  loss : Bool
  ecode : Nat
  sticky : Bool
deriving DecidableEq, Repr

/-- The number a value stands for, as a 256-bit word (R8). -/
def wordOf (x : Value) : BitVec 256 := BitVec.ofNat 256 x.val

/-- The numeric reading of a state. -/
def State.numeric (s : State) : NumState where
  v := wordOf s.v
  b := wordOf s.b
  res := s.res.toNat
  loss := s.loss
  ecode := s.ecode.toNat
  sticky := s.sticky

/-- STATUS as a number: RES | LOSS<<9 | ECODE<<10 | STICKY<<13 (R25, 95_test_vectors.md section 0). -/
def NumState.status (n : NumState) : Nat := n.res + n.loss.toNat * 2 ^ 9 + n.ecode * 2 ^ 10 + n.sticky.toNat * 2 ^ 13

/-- The number of 1 bits of a 256-bit word (R152). -/
def numPopcount (x : BitVec 256) : Nat := popcountBits x

/-- The least n with x < 2^n (R153). -/
def numBitLength (x : BitVec 256) : Nat := if x = 0 then 0 else x.toNat.log2 + 1

/-- `pat(2^end - 2^start)` (R170). -/
def numFillMask (start stop : Nat) : BitVec 256 := BitVec.ofNat 256 (2 ^ stop - 2 ^ start)

/-- A 256-bit word with limb j replaced by d (R9, R43). -/
def numSetLimb (x : BitVec 256) (j : Nat) (d : Limb) : BitVec 256 :=
  (x &&& ~~~((BitVec.allOnes 64).zeroExtend 256 <<< (64 * j))) ||| (d.zeroExtend 256 <<< (64 * j))

/-- A left shift by d: the product with 2^d modulo 2^256 (R121), lost where the product does not fit (R122). -/
def NumState.shiftLeft (n : NumState) (d : Nat) : NumState :=
  { n with v := BitVec.ofNat 256 (n.v.toNat * 2 ^ d), loss := decide (2 ^ 256 ≤ n.v.toNat * 2 ^ d) }

/-- A right shift by d: the quotient by 2^d (R123), lost where the remainder is not 0 (R124). -/
def NumState.shiftRight (n : NumState) (d : Nat) : NumState :=
  { n with v := BitVec.ofNat 256 (n.v.toNat / 2 ^ d), loss := decide (n.v.toNat % 2 ^ d ≠ 0) }

/-- The end of an accepted command (R74, R79): ECODE <- 0 and STATUS as the response. -/
def NumState.accepted (n : NumState) : NumState × Nat := ({ n with ecode := 0 }, ({ n with ecode := 0 } : NumState).status)

/-- `reject(s, e)` (R74, R203). -/
def NumState.rejected (n : NumState) (e : Nat) : NumState × Nat :=
  ({ n with ecode := e, sticky := true }, ({ n with ecode := e, sticky := true } : NumState).status)

/-- The operand that S selects (R180). -/
def NumState.selected (n : NumState) : OpSel → BitVec 256
  | .b => n.b
  | .v => n.v

/-- What one decoded command does to the numbers, with its response (R74, R79, R103 to R183). -/
def numExec (i : Instr) (din : Limb) (n : NumState) : NumState × Nat :=
  match i with
  | .nop => n.accepted
  | .wrv limb => { n with v := numSetLimb n.v limb.toNat din }.accepted
  | .rdv limb => ({ n with ecode := 0 }, n.v.toNat / 2 ^ (64 * limb.toNat) % 2 ^ 64)
  | .wrb limb => { n with b := numSetLimb n.b limb.toNat din }.accepted
  | .rdb limb => ({ n with ecode := 0 }, n.b.toNat / 2 ^ (64 * limb.toNat) % 2 ^ 64)
  | .rdst => (n, n.status)
  | .clrst => { n with res := 0, loss := false, ecode := 0, sticky := false }.accepted
  | .lshift dist => (n.shiftLeft (dist.toNat % 256)).accepted
  | .rshift dist => (n.shiftRight (dist.toNat % 256)).accepted
  | .shift dist =>
    if 0 ≤ dist.toInt then (n.shiftLeft (dist.toInt.toNat % 256)).accepted
    else (n.shiftRight ((-dist.toInt).toNat % 256)).accepted
  | .get idx => { n with res := (n.v.getLsbD idx.toNat).toNat }.accepted
  | .popcnt => { n with res := numPopcount n.v }.accepted
  | .highbit => { n with res := numBitLength n.v }.accepted
  | .fill start stop =>
    if start.toNat ≤ stop.toNat ∧ stop.toNat ≤ 256 then
      { n with v := n.v ||| numFillMask start.toNat stop.toNat }.accepted
    else n.rejected 3
  | .ior op => { n with v := n.v ||| n.selected op }.accepted
  | .and op => { n with v := n.v &&& n.selected op }.accepted
  | .xor op => { n with v := n.v ^^^ n.selected op }.accepted

/-- The first table row whose opcode is that of the word (R71). -/
def rowOf (w : CommandWord) : Option TableRow := opcodeTable.find? fun r => r.opc == w.extractLsb' 0 8

/-- `step(s, cmd, din) -> (s', dout)` of R74, with the opcode and the reserved field checked against
spec/opcode_table.json's masks. -/
def numCommand (c : Command) (n : NumState) : NumState × Nat :=
  match rowOf c.cmd with
  | none => n.rejected 1
  | some r =>
    if c.cmd &&& r.reserved ≠ 0 then n.rejected 2
    else
      match decode c.cmd with
      | .ok i => numExec i c.din n
      | .error e => n.rejected e.code.toNat

/-- One edge of the clock on the numbers (R62, R240, R241), without the response. -/
def numEdge (n : NumState) (p : Pins) : NumState :=
  if p.rst then { v := 0, b := 0, res := 0, loss := false, ecode := 0, sticky := false }
  else if p.cmdValid then (numCommand { cmd := p.cmd, din := p.din } n).1
  else n

end Sys2Proof.Machine
end

