-- ==== Sys2Proof/Safety.lean ====
section
/-! DEFINITION. The terms the statements use: the values the status fields may hold, the invariant of R205, a step without
an error, and the classes of commands by what they write. -/

namespace Sys2Proof.Machine

/-- RES and ECODE hold values the spec calls legal: RES at most 256, ECODE at most 3 (R25, U9, U11). -/
def State.LegalStatus (s : State) : Prop := s.res.toNat ≤ 256 ∧ s.ecode.toNat ≤ 3

/-- A nonzero error code is also recorded in STICKY (R205). -/
def State.ErrorRecorded (s : State) : Prop := s.ecode ≠ 0 → s.sticky = true

/-- The invariant of the machine (R25, R205). -/
def State.Inv (s : State) : Prop := s.LegalStatus ∧ s.ErrorRecorded

/-- No command was rejected since the last reset or CLRST (R29): the host's one check of a whole sequence (D12). -/
def State.Clean (s : State) : Prop := s.ecode = 0 ∧ s.sticky = false

end Sys2Proof.Machine

namespace Sys2Proof

/-- The shift commands, the only writers of LOSS besides CLRST (R26). -/
def Instr.isShift : Instr → Bool
  | .lshift _ | .rshift _ | .shift _ => true
  | .nop | .wrv _ | .rdv _ | .wrb _ | .rdb _ | .rdst | .clrst | .get _ | .popcnt | .highbit | .fill _ _
  | .ior _ | .and _ | .xor _ => false

/-- The query commands, the only writers of RES besides CLRST (R27, R150). -/
def Instr.isQuery : Instr → Bool
  | .get _ | .popcnt | .highbit => true
  | .nop | .wrv _ | .rdv _ | .wrb _ | .rdb _ | .rdst | .clrst | .lshift _ | .rshift _ | .shift _ | .fill _ _
  | .ior _ | .and _ | .xor _ => false

/-- The commands that write V (R20). -/
def Instr.writesV : Instr → Bool
  | .wrv _ | .lshift _ | .rshift _ | .shift _ | .fill _ _ | .ior _ | .and _ | .xor _ => true
  | .nop | .rdv _ | .wrb _ | .rdb _ | .rdst | .clrst | .get _ | .popcnt | .highbit => false

/-- The commands that write B: WRB alone (R21). -/
def Instr.writesB : Instr → Bool
  | .wrb _ => true
  | .nop | .wrv _ | .rdv _ | .rdb _ | .rdst | .clrst | .lshift _ | .rshift _ | .shift _ | .get _ | .popcnt | .highbit
  | .fill _ _ | .ior _ | .and _ | .xor _ => false

/-- The commands whose response is a limb (R79). -/
def Instr.readsLimb : Instr → Bool
  | .rdv _ | .rdb _ => true
  | .nop | .wrv _ | .wrb _ | .rdst | .clrst | .lshift _ | .rshift _ | .shift _ | .get _ | .popcnt | .highbit
  | .fill _ _ | .ior _ | .and _ | .xor _ => false

/-- The command that a decoded instruction is rejected for, beside the decoder's own two reasons: FILL with bounds outside
the legal domain (R170, R171). -/
def Instr.rejectedRange : Instr → Bool
  | .fill start stop => !Machine.fillOk start.toNat stop.toNat
  | .nop | .wrv _ | .rdv _ | .wrb _ | .rdb _ | .rdst | .clrst | .lshift _ | .rshift _ | .shift _ | .get _ | .popcnt
  | .highbit | .ior _ | .and _ | .xor _ => false

/-- The error a command word meets, in the order of R204; none where it is performed. -/
def errorOf (w : CommandWord) : Option ErrorCode :=
  match decode w with
  | .error e => some e
  | .ok i => if i.rejectedRange then some .fillRange else none

end Sys2Proof
end

