-- ==== Sys2Proof/Certificates/Slice0/Obligations.lean ====
section
/-! DEFINITION. The statements for the provers. `t = { s with v := t.v, … }` is the frame of an instruction: every field of
the state that is not named there is unchanged, the input levels and the host's schedule included. The block has no
memory and no program counter (R22, R40), so no frame speaks of them. No statement rests on a free value
(`Config.idleDout`) or on a value at reset that a log entry chose; a statement that rests on another choice of the model
names its log entry. -/

open Sys2Proof Sys2Proof.Machine

/-! ### Terms of the statements -/

/-- The 239 opcode bytes that R72 lists as illegal. -/
def illegalByte (b : Nat) : Bool :=
  (0x07 ≤ b && b ≤ 0x0F) || (0x13 ≤ b && b ≤ 0x1F) || (0x23 ≤ b && b ≤ 0x2F) || (0x31 ≤ b && b ≤ 0x3F)
    || (0x43 ≤ b && b ≤ 0xFF)

/-- The number of set bits of X among the absolute bit indices that satisfy `p`. -/
def setBitsWhere (x : Value) (p : Nat → Bool) : Nat := (List.range 256).countP fun i => p i && x.bit i

/-- LOSS after a command that is performed, on numbers (R26, R122, R124). -/
def lossAfter (i : Instr) (s : State) : Bool :=
  match i with
  | .lshift dist => decide (2 ^ 256 ≤ s.v.val * 2 ^ (dist.toNat % 256))
  | .rshift dist => decide (s.v.val % 2 ^ (dist.toNat % 256) ≠ 0)
  | .shift dist =>
    if 0 < dist.toInt then decide (2 ^ 256 ≤ s.v.val * 2 ^ (dist.toInt.toNat % 256))
    else if dist.toInt < 0 then decide (s.v.val % 2 ^ ((-dist.toInt).toNat % 256) ≠ 0)
    else false
  | .clrst => false
  | .nop | .wrv _ | .rdv _ | .wrb _ | .rdb _ | .rdst | .get _ | .popcnt | .highbit | .fill _ _ | .ior _ | .and _
  | .xor _ => s.loss

/-- The command words of an assembler line, without the data words beside them; none where the line is refused. -/
def assembledWords (l : AsmLine) : Option (List CommandWord) := l.assemble.map fun cs => cs.map Command.cmd

/-- The levels that the next n edges sample: the present ones, then the schedule, then nothing (log entry 2). -/
def coming (s : State) (n : Nat) : List Pins := (s.pins :: s.schedule ++ List.replicate n Pins.idle).take n

/-! ### Decoding and encoding -/

/-- The assembler gives each of the spec's example lines the command word the spec prints beside it (R77, which the spec
marks as computed from R64 and R71). -/
def Obligations.EncodingExamplesAssemble : Prop :=
  (∀ e ∈ [("nop", 0x00000000#32), ("rdv 2", 0x00000202#32), ("lshift 63", 0x003F0010#32), ("lshift 256", 0x01000010#32),
      ("rshift 63", 0x003F0011#32), ("shift -1", 0xFFFF0012#32), ("shift 64", 0x00400012#32), ("get 255", 0x0000FF20#32),
      ("popcnt", 0x00000021#32), ("highbit", 0x00000022#32), ("fill 128, 129", 0x01028030#32),
      ("fill 0, 256", 0x02000030#32), ("ior b", 0x00000040#32), ("xor v", 0x00000142#32)],
    (assembleText e.1).map (fun cs => cs.map Command.cmd) = some [e.2]) ∧
  assembleText "wrv 3, 0x1" = some [{ cmd := 0x00000301, din := 0x0000000000000001 }]

/-- The words of the spec's examples, one or more of each family, decode to the commands they stand for. -/
def Obligations.ExampleWordsDecode : Prop :=
  decode 0x00000000 = .ok .nop ∧ decode 0x00000301 = .ok (.wrv 3) ∧ decode 0x00000202 = .ok (.rdv 2) ∧
  decode 0x003F0010 = .ok (.lshift 63) ∧ decode 0x003F0011 = .ok (.rshift 63) ∧ decode 0xFFFF0012 = .ok (.shift (-1)) ∧
  decode 0x0000FF20 = .ok (.get 255) ∧ decode 0x00000021 = .ok .popcnt ∧ decode 0x00000022 = .ok .highbit ∧
  decode 0x01028030 = .ok (.fill 128 129) ∧ decode 0x00000040 = .ok (.ior .b) ∧ decode 0x00000142 = .ok (.xor .v)

/-- Decode and encode agree, for every instruction with every operand its fields admit. -/
def Obligations.DecodeOfEncodeIsTheInstruction : Prop := ∀ i : Instr, decode (encode i) = .ok i

/-- The decoder accepts no word but the one encoding of the instruction it answers. -/
def Obligations.AcceptedWordIsItsEncoding : Prop := ∀ (w : CommandWord) (i : Instr), decode w = .ok i → encode i = w

/-- The decoder accepts exactly the words that a row of spec/opcode_table.json accepts, under that row's opcode; the rows
do not overlap. -/
def Obligations.DecoderAcceptsExactlyTheTable : Prop :=
  (∀ w : CommandWord, (∃ i, decode w = .ok i) ↔ wellFormedWord w = true) ∧
  (∀ (w : CommandWord) (i : Instr) (r : TableRow), decode w = .ok i → r ∈ opcodeTable → r.accepts w = true →
    r.opc = i.opcode.byte) ∧
  (∀ w : CommandWord, (opcodeTable.filter fun r => r.accepts w).length ≤ 1)

/-- R72: exactly the 239 listed opcodes are illegal, whatever the other bits hold; every other word is a listed command or
a listed command with a nonzero reserved field; an illegal opcode is rejected with ECODE = 1. -/
def Obligations.IllegalOpcodesAreRejected : Prop :=
  ((List.range 256).filter illegalByte).length = 239 ∧
  (∀ w : CommandWord, decode w = .error .illegalOpcode ↔ illegalByte (w.toNat % 256) = true) ∧
  (∀ w : CommandWord, illegalByte (w.toNat % 256) = false →
    (∃ i, decode w = .ok i) ∨
    (decode w = .error .reservedField ∧ ∃ r ∈ opcodeTable, r.opc = opcField w ∧ w &&& r.reserved ≠ 0)) ∧
  (∀ s : State, s.accepting = true → illegalByte (s.pins.cmd.toNat % 256) = true →
    ∃ t, step s = .next t ∧ t.ecode = 1 ∧ t.sticky = true ∧ t.v = s.v ∧ t.b = s.b ∧ t.res = s.res ∧ t.loss = s.loss)

/-- R73: a legal opcode with any bit under its row's reserved mask is rejected with ECODE = 2; no reserved bit is ignored. -/
def Obligations.ReservedBitsAreRejected : Prop :=
  (∀ (s : State) (r : TableRow), r ∈ opcodeTable → s.accepting = true → opcField s.pins.cmd = r.opc →
    s.pins.cmd &&& r.reserved ≠ 0 →
    ∃ t, step s = .next t ∧ t.ecode = 2 ∧ t.sticky = true ∧ t.v = s.v ∧ t.b = s.b ∧ t.res = s.res ∧ t.loss = s.loss) ∧
  (∀ (w : CommandWord) (i : Instr) (r : TableRow), decode w = .ok i → r ∈ opcodeTable → r.opc = opcField w →
    w &&& r.reserved = 0)

/-- The assembler refuses a line exactly where an operand lies outside its range, for every line of R76 and R78 that has
numeric operands; otherwise it answers the line's command words, in order. Nothing is said of the `din` of a line that
names no data (log entries 8 and 11 chose it): `assembledWords` drops it. Where the line names the data (`wrv`, `wrb`, `ldv`, `ldb`) the `din` is
that data. -/
def Obligations.AssemblerRefusesWideOperands : Prop :=
  (∀ limb data : Nat,
    (AsmLine.wrv limb data).assemble =
      (if limb < 4 ∧ data < 2 ^ 64 then some [{ cmd := encode (.wrv (BitVec.ofNat 2 limb)), din := BitVec.ofNat 64 data }]
       else none) ∧
    (AsmLine.wrb limb data).assemble =
      (if limb < 4 ∧ data < 2 ^ 64 then some [{ cmd := encode (.wrb (BitVec.ofNat 2 limb)), din := BitVec.ofNat 64 data }]
       else none)) ∧
  (∀ limb : Nat,
    assembledWords (AsmLine.rdv limb) = (if limb < 4 then some [encode (.rdv (BitVec.ofNat 2 limb))] else none) ∧
    assembledWords (AsmLine.rdb limb) = (if limb < 4 then some [encode (.rdb (BitVec.ofNat 2 limb))] else none)) ∧
  (∀ d : Nat,
    assembledWords (AsmLine.lshift d) = (if d ≤ 65535 then some [encode (.lshift (BitVec.ofNat 16 d))] else none) ∧
    assembledWords (AsmLine.rshift d) = (if d ≤ 65535 then some [encode (.rshift (BitVec.ofNat 16 d))] else none)) ∧
  (∀ n : Int,
    assembledWords (AsmLine.shift n) = if -32768 ≤ n ∧ n ≤ 32767 then some [encode (.shift (BitVec.ofInt 16 n))] else none) ∧
  (∀ i : Nat,
    assembledWords (AsmLine.get i) = (if i ≤ 255 then some [encode (.get (BitVec.ofNat 8 i))] else none) ∧
    assembledWords (AsmLine.setbit i) =
      (if i ≤ 255 then some [encode (.fill (BitVec.ofNat 9 i) (BitVec.ofNat 9 (i + 1)))] else none)) ∧
  (∀ start stop : Nat,
    assembledWords (AsmLine.fill start stop) =
      if start ≤ 511 ∧ stop ≤ 511 then some [encode (.fill (BitVec.ofNat 9 start) (BitVec.ofNat 9 stop))] else none) ∧
  (∀ w : Nat, assembledWords (AsmLine.word w) = if w < 2 ^ 32 then some [BitVec.ofNat 32 w] else none) ∧
  (∀ a3 a2 a1 a0 : Nat,
    (AsmLine.ldv a3 a2 a1 a0).assemble =
      (if a3 < 2 ^ 64 ∧ a2 < 2 ^ 64 ∧ a1 < 2 ^ 64 ∧ a0 < 2 ^ 64 then
        some [{ cmd := encode (.wrv 0), din := BitVec.ofNat 64 a0 }, { cmd := encode (.wrv 1), din := BitVec.ofNat 64 a1 },
          { cmd := encode (.wrv 2), din := BitVec.ofNat 64 a2 }, { cmd := encode (.wrv 3), din := BitVec.ofNat 64 a3 }]
       else none) ∧
    (AsmLine.ldb a3 a2 a1 a0).assemble =
      (if a3 < 2 ^ 64 ∧ a2 < 2 ^ 64 ∧ a1 < 2 ^ 64 ∧ a0 < 2 ^ 64 then
        some [{ cmd := encode (.wrb 0), din := BitVec.ofNat 64 a0 }, { cmd := encode (.wrb 1), din := BitVec.ofNat 64 a1 },
          { cmd := encode (.wrb 2), din := BitVec.ofNat 64 a2 }, { cmd := encode (.wrb 3), din := BitVec.ofNat 64 a3 }]
       else none))

/-! ### The clock edge -/

/-- An accepted word that decodes is run by the meaning of its instruction; around it the step moves on to the host's next
input levels (the model's own, log entries 1 and 2), and does nothing else. -/
def Obligations.StepRunsDecodedInstruction : Prop :=
  ∀ (s t : State) (i : Instr), s.accepting = true → decode s.pins.cmd = .ok i → exec i s = .next t →
    step s = .next { t with pins := t.schedule.head?.getD Pins.idle, schedule := t.schedule.tail }

/-- R203: a rejected command writes ECODE, STICKY and the response, and nothing else. -/
def Obligations.RejectionWritesErrorFieldsOnly : Prop :=
  ∀ (s : State) (e : ErrorCode), s.accepting = true → errorOf s.pins.cmd = some e →
    ∃ t, step s = .next t ∧ t.ecode = e.code ∧ t.ecode ∈ [1, 2, 3] ∧ t.sticky = true ∧ t.rspValid = true ∧
      t.dout = t.statusWord ∧ t.v = s.v ∧ t.b = s.b ∧ t.loss = s.loss ∧ t.res = s.res ∧ t.freeIndex = s.freeIndex

/-- R28 and R204: ECODE after every presented command, with the order of the checks. -/
def Obligations.EcodeFollowsCheckOrder : Prop :=
  ∀ s : State, s.accepting = true → ∃ t, step s = .next t ∧
    ((∀ r ∈ opcodeTable, r.opc ≠ opcField s.pins.cmd) → t.ecode = 1) ∧
    (∀ r ∈ opcodeTable, r.opc = opcField s.pins.cmd →
      (s.pins.cmd &&& r.reserved ≠ 0 → t.ecode = 2) ∧
      (s.pins.cmd &&& r.reserved = 0 →
        t.ecode =
          if r.opc = 0x30 ∧ ¬ (startField s.pins.cmd ≤ endField s.pins.cmd ∧ endField s.pins.cmd ≤ 256) then 3
          else if r.opc = 0x05 then s.ecode else 0))

/-- R240: an edge with `rst = 1` resets whatever command is presented, discards it without record, is announced by
`cmd_ready = 0` and followed by `rsp_valid = 0`. -/
def Obligations.ResetWinsOverCommand : Prop :=
  ∀ (s : State) (p : Pins), s.pins.rst = true → p.rst = true →
    s.cmdReady = false ∧ step { s with pins := p } = step s ∧
    ∃ t, step s = .next t ∧ t.rspValid = false ∧ t.v = Value.zero ∧ t.b = Value.zero ∧ t.statusWord = 0

/-- R241: after reset every piece of the architectural state is zero, in `State.reset` and after a reset edge from any
state, one before the first reset among them (R242). -/
def Obligations.ResetLeavesEveryFieldZero : Prop :=
  (∀ j < 4, State.reset.v.limbAt j = 0 ∧ State.reset.b.limbAt j = 0) ∧ State.reset.res = 0 ∧ State.reset.loss = false ∧
  State.reset.ecode = 0 ∧ State.reset.sticky = false ∧ State.reset.statusWord = 0 ∧ State.reset.rspValid = false ∧
  ∀ s : State, s.pins.rst = true → ∃ t, step s = .next t ∧ (∀ j < 4, t.v.limbAt j = 0 ∧ t.b.limbAt j = 0) ∧
    t.res = 0 ∧ t.loss = false ∧ t.ecode = 0 ∧ t.sticky = false ∧ t.statusWord = 0

/-- An edge with neither reset nor command changes no register; a response is valid exactly after an accepted command
(R62). What the ports carry next is the model's own (log entries 1 and 2). -/
def Obligations.ResponseValidOnlyAfterAcceptance : Prop :=
  ∀ s : State, ∃ t, step s = .next t ∧ t.rspValid = s.accepting ∧
    t.pins = s.schedule.head?.getD Pins.idle ∧ t.schedule = s.schedule.tail ∧
    (s.pins.rst = false → s.pins.cmdValid = false →
      t.v = s.v ∧ t.b = s.b ∧ t.res = s.res ∧ t.loss = s.loss ∧ t.ecode = s.ecode ∧ t.sticky = s.sticky)

/-- R247: every command finishes, so a run of any length goes on from any state, and the block is always ready for the
next command but in reset. -/
def Obligations.EveryRunGoesOn : Prop :=
  (∀ (i : Instr) (s : State), ∃ t, exec i s = .next t) ∧
  (∀ (n : Nat) (s : State), ∃ t, Host.Core.run core n s = .next t) ∧
  (∀ s : State, s.cmdReady = !s.pins.rst)

/-! ### The status register -/

/-- R30, with the layout of STATUS: the four fields at their places, and 0 above them. -/
def Obligations.StatusWordLayout : Prop :=
  ∀ s : State, s.statusWord.extractLsb' 14 50 = 0 ∧ s.statusWord.extractLsb' 0 9 = s.res ∧
    s.statusWord.getLsbD 9 = s.loss ∧ s.statusWord.extractLsb' 10 3 = s.ecode ∧ s.statusWord.getLsbD 13 = s.sticky ∧
    s.statusWord.toNat = s.res.toNat + s.loss.toNat * 2 ^ 9 + s.ecode.toNat * 2 ^ 10 + s.sticky.toNat * 2 ^ 13

/-- The invariant holds after reset. -/
def Obligations.ResetMeetsStatusInvariant : Prop := State.reset.Inv

/-- The invariant (RES at most 256, ECODE at most 3, an error code always recorded in STICKY) is kept by every step. -/
def Obligations.StepKeepsStatusInvariant : Prop := ∀ s t : State, s.Inv → step s = .next t → t.Inv

/-- Who sets and who clears STICKY, at every edge; and that ECODE ≠ 0 implies STICKY = 1 holds after reset and is kept
(R205, which the spec derives from R203 and R109). -/
def Obligations.StickyRecordsEveryRejection : Prop :=
  (∀ s : State, ∃ t, step s = .next t ∧
    t.sticky =
      if s.pins.rst then false
      else if s.pins.cmdValid then
        if errorOf s.pins.cmd ≠ none then true
        else if decode s.pins.cmd = .ok .clrst then false
        else s.sticky
      else s.sticky) ∧
  State.reset.ErrorRecorded ∧ ∀ s t : State, s.ErrorRecorded → step s = .next t → t.ErrorRecorded

/-- R26: LOSS after every command, and after a command the decoder rejects. -/
def Obligations.LossIsTheLastShifts : Prop :=
  (∀ (i : Instr) (s : State), ∃ t, exec i s = .next t ∧ t.loss = lossAfter i s) ∧
  (∀ (s : State) (e : ErrorCode), s.accepting = true → decode s.pins.cmd = .error e →
    ∃ t, step s = .next t ∧ t.loss = s.loss)

/-- R27: RES after every command is the query's result, 0 after CLRST, and unchanged otherwise. -/
def Obligations.ResIsTheLastQuerys : Prop :=
  (∀ (i : Instr) (s : State), ∃ t, exec i s = .next t ∧
    match i with
    | .get idx => t.res.toNat = s.v.val / 2 ^ idx.toNat % 2 ∧ t.res.toNat ≤ 1
    | .popcnt => t.res.toNat = setBitsWhere s.v (fun _ => true) ∧ t.res.toNat ≤ 256
    | .highbit => s.v.val < 2 ^ t.res.toNat ∧ (∀ n, s.v.val < 2 ^ n → t.res.toNat ≤ n) ∧ t.res.toNat ≤ 256
    | .clrst => t.res = 0
    | .nop | .wrv _ | .rdv _ | .wrb _ | .rdb _ | .rdst | .lshift _ | .rshift _ | .shift _ | .fill _ _ | .ior _ | .and _
    | .xor _ => t.res = s.res) ∧
  (∀ (s : State) (e : ErrorCode), s.accepting = true → decode s.pins.cmd = .error e →
    ∃ t, step s = .next t ∧ t.res = s.res)

/-- R79: the response of every command, rejected ones among them. -/
def Obligations.ResponseIsLimbOrStatus : Prop :=
  ∀ s : State, s.accepting = true → ∃ t, step s = .next t ∧ t.rspValid = true ∧
    (∀ limb : LimbIndex, decode s.pins.cmd = .ok (.rdv limb) ∨ decode s.pins.cmd = .ok (.rdb limb) →
      t.v = s.v ∧ t.b = s.b) ∧
    t.dout =
      match decode s.pins.cmd with
      | .ok (.rdv limb) => s.v.limbAt limb.toNat
      | .ok (.rdb limb) => s.b.limbAt limb.toNat
      | _ => t.statusWord

/-- R75: `din` changes nothing but what WRV and WRB write, and never causes a rejection. -/
def Obligations.DinIsIgnoredByOthers : Prop :=
  (∀ (s : State) (d : Limb), opcField s.pins.cmd ≠ 0x01 → opcField s.pins.cmd ≠ 0x03 →
    step { s with pins := { s.pins with din := d } } = step s) ∧
  (∀ (s t u : State) (d : Limb), step s = .next t → step { s with pins := { s.pins with din := d } } = .next u →
    u.ecode = t.ecode ∧ u.sticky = t.sticky ∧ u.rspValid = t.rspValid)

/-- No value the block computes depends on a flag or on any state but V and B: two states with equal V, B and din agree on
every value a command computes. -/
def Obligations.NoCommandReadsAFlag : Prop :=
  ∀ (i : Instr) (s s' : State), s.v = s'.v → s.b = s'.b → s.pins.din = s'.pins.din →
    ∃ t t', exec i s = .next t ∧ exec i s' = .next t' ∧ t.v = t'.v ∧ t.b = t'.b ∧
      (i.isShift = true → t.loss = t'.loss) ∧ (i.isQuery = true → t.res = t'.res) ∧
      (i.readsLimb = true → t.dout = t'.dout) ∧ (i ≠ .rdst → t.ecode = t'.ecode)

/-- V is written by WRV, the shifts, FILL and the combinators only, B by WRB only, and no command touches the input levels,
the schedule or the counter of free values. -/
def Obligations.OnlyTheNamedCommandsWriteVAndB : Prop :=
  ∀ (i : Instr) (s : State), ∃ t, exec i s = .next t ∧ (i.writesV = false → t.v = s.v) ∧ (i.writesB = false → t.b = s.b) ∧
    t.pins = s.pins ∧ t.schedule = s.schedule ∧ t.freeIndex = s.freeIndex

/-! ### Value access, status and system commands -/

/-- WRV writes the selected limb of V and no other, WRB that of B. -/
def Obligations.WriteLimbResult : Prop :=
  ∀ (limb : LimbIndex) (s : State),
    (∃ t, exec (.wrv limb) s = .next t ∧
      (∀ k < 4, t.v.limbAt k = if k = limb.toNat then s.pins.din else s.v.limbAt k) ∧
      t = { s with v := t.v, ecode := 0, rspValid := true, dout := t.statusWord }) ∧
    (∃ t, exec (.wrb limb) s = .next t ∧
      (∀ k < 4, t.b.limbAt k = if k = limb.toNat then s.pins.din else s.b.limbAt k) ∧
      t = { s with b := t.b, ecode := 0, rspValid := true, dout := t.statusWord })

/-- RDV answers the selected limb of V, RDB that of B, as a number, and changes ECODE only. -/
def Obligations.ReadLimbResult : Prop :=
  ∀ (limb : LimbIndex) (s : State),
    (∃ t, exec (.rdv limb) s = .next t ∧ t.dout.toNat = s.v.val / 2 ^ (64 * limb.toNat) % 2 ^ 64 ∧
      t = { s with ecode := 0, rspValid := true, dout := t.dout }) ∧
    (∃ t, exec (.rdb limb) s = .next t ∧ t.dout.toNat = s.b.val / 2 ^ (64 * limb.toNat) % 2 ^ 64 ∧
      t = { s with ecode := 0, rspValid := true, dout := t.dout })

/-- R43: bit b of the bus is bit 64 j + b of the register, in both directions. -/
def Obligations.BusBitsAreLimbBits : Prop :=
  ∀ (limb : LimbIndex) (s : State) (b : Nat), b < 64 →
    (∃ t, exec (.wrv limb) s = .next t ∧ t.v.bit (64 * limb.toNat + b) = s.pins.din.getLsbD b) ∧
    (∃ t, exec (.wrb limb) s = .next t ∧ t.b.bit (64 * limb.toNat + b) = s.pins.din.getLsbD b) ∧
    (∃ t, exec (.rdv limb) s = .next t ∧ t.dout.getLsbD b = s.v.bit (64 * limb.toNat + b)) ∧
    (∃ t, exec (.rdb limb) s = .next t ∧ t.dout.getLsbD b = s.b.bit (64 * limb.toNat + b))

/-- NOP writes ECODE <- 0 and nothing else, RDST writes nothing (ECODE included), CLRST clears every field of STATUS and
keeps V and B; each answers STATUS. -/
def Obligations.NopRdstClrstResults : Prop :=
  ∀ s : State,
    (∃ t, exec .nop s = .next t ∧ t = { s with ecode := 0, rspValid := true, dout := statusOf s.res s.loss 0 s.sticky }) ∧
    (∃ t, exec .rdst s = .next t ∧ t = { s with rspValid := true, dout := s.statusWord }) ∧
    (∃ t, exec .clrst s = .next t ∧ t.statusWord = 0 ∧
      t = { s with res := 0, loss := false, ecode := 0, sticky := false, rspValid := true, dout := 0 })

/-- R244: a command sees every effect of the one accepted at the edge before, with no gap, over two edges of the clock.
For any two command words, legal or not, the second does its command step (on the numbers) on what the first left. Then
R244's own list: RDV right after WRV of the same limb, a shift right after a WRV, a query right after a shift, RDST right
after any command. A `din` that the second command ignores is any. -/
def Obligations.NextCommandSeesEveryEffect : Prop :=
  (∀ (s : State) (c₁ c₂ : Command), ∃ u, Host.Core.run core 2 (s.present [c₁, c₂]) = .next u ∧ u.rspValid = true ∧
    (u.numeric, u.dout.toNat) = numCommand c₂ (numCommand c₁ s.numeric).1) ∧
  (∀ (s : State) (limb : LimbIndex) (d d' : Limb), ∃ u,
    Host.Core.run core 2 (s.present [⟨encode (.wrv limb), d⟩, ⟨encode (.rdv limb), d'⟩]) = .next u ∧ u.dout = d) ∧
  (∀ (s : State) (limb : LimbIndex) (d d' : Limb) (i : Instr), i.isShift = true → ∃ t u,
    Host.Core.run core 2 (s.present [⟨encode (.wrv limb), d⟩, ⟨encode i, d'⟩]) = .next u ∧
    exec i (s.setV (s.v.setLimb limb.toNat d)) = .next t ∧ u.v = t.v ∧ u.loss = t.loss) ∧
  (∀ (s : State) (i q : Instr) (d d' : Limb), i.isShift = true → q.isQuery = true → ∃ t r u,
    Host.Core.run core 2 (s.present [⟨encode i, d⟩, ⟨encode q, d'⟩]) = .next u ∧
    exec i s = .next t ∧ exec q t = .next r ∧ u.v = t.v ∧ u.res = r.res) ∧
  (∀ (s : State) (c : Command) (d : Limb), ∃ t u, Host.Core.run core 1 (s.present [c]) = .next t ∧
    Host.Core.run core 2 (s.present [c, ⟨encode .rdst, d⟩]) = .next u ∧ u.dout = t.statusWord)

/-! ### The shift engine -/

/-- R120: the distance of LSHIFT and RSHIFT is DIST[7:0], and splits into k whole limbs and s bits. -/
def Obligations.UnsignedDistanceIsReduced : Prop :=
  ∀ dist : Distance, unsignedDistance dist = dist.toNat &&& 255 ∧ unsignedDistance dist = (dist.extractLsb' 0 8).toNat ∧
    unsignedDistance dist = dist.toNat % 256 ∧ unsignedDistance dist % 64 ≤ 63 ∧ unsignedDistance dist / 64 ≤ 3 ∧
    unsignedDistance dist = 64 * (unsignedDistance dist / 64) + unsignedDistance dist % 64 ∧
    ∀ s : State,
      exec (.lshift dist) s = .next ((s.setV (lsh s.v (dist.toNat &&& 255))).setLoss (lossLeft s.v (dist.toNat &&& 255))).accept ∧
      exec (.rshift dist) s = .next ((s.setV (rsh s.v (dist.toNat &&& 255))).setLoss (lossRight s.v (dist.toNat &&& 255))).accept

/-- R121: the three definitions of the left shift agree: by limbs, bit by bit, and as a number. -/
def Obligations.LeftShiftDefinitionsAgree : Prop :=
  ∀ (x : Value) (d : Nat), d ≤ 255 →
    (lsh x d).val = x.val * 2 ^ d % 2 ^ 256 ∧
    (∀ i < 256, (lsh x d).bit i = if d ≤ i then x.bit (i - d) else false) ∧
    (∀ j < 4, (lsh x d).limbAt j =
      (if d / 64 ≤ j then x.limbAt (j - d / 64) <<< (d % 64) else 0) |||
      (if d % 64 ≠ 0 ∧ d / 64 + 1 ≤ j then x.limbAt (j - d / 64 - 1) >>> (64 - d % 64) else 0))

/-- R122: the three definitions of the overflow flag agree: some bit that would land at index 256 or above, by limbs, and
on the number. -/
def Obligations.LeftLossDefinitionsAgree : Prop :=
  ∀ (x : Value) (d : Nat), d ≤ 255 →
    (lossLeft x d = true ↔ ∃ i, i < 256 ∧ 256 ≤ i + d ∧ x.bit i = true) ∧
    (lossLeft x d = true ↔ d ≠ 0 ∧ 2 ^ (256 - d) ≤ x.val) ∧
    (lossLeft x d = true ↔
      (∃ m, 4 - d / 64 ≤ m ∧ m ≤ 3 ∧ x.limbAt m ≠ 0) ∨
      (d % 64 ≠ 0 ∧ x.limbAt (3 - d / 64) >>> (64 - d % 64) ≠ 0))

/-- R123: the three definitions of the right shift agree. -/
def Obligations.RightShiftDefinitionsAgree : Prop :=
  ∀ (x : Value) (d : Nat), d ≤ 255 →
    (rsh x d).val = x.val / 2 ^ d ∧
    (∀ i < 256, (rsh x d).bit i = if i + d ≤ 255 then x.bit (i + d) else false) ∧
    (∀ j < 4, (rsh x d).limbAt j =
      (if j + d / 64 ≤ 3 then x.limbAt (j + d / 64) >>> (d % 64) else 0) |||
      (if d % 64 ≠ 0 ∧ j + d / 64 + 1 ≤ 3 then x.limbAt (j + d / 64 + 1) <<< (64 - d % 64) else 0))

/-- R124: the three definitions of the underflow flag agree. -/
def Obligations.RightLossDefinitionsAgree : Prop :=
  ∀ (x : Value) (d : Nat), d ≤ 255 →
    (lossRight x d = true ↔ ∃ i, i < d ∧ x.bit i = true) ∧
    (lossRight x d = true ↔ x.val % 2 ^ d ≠ 0) ∧
    (lossRight x d = true ↔
      (∃ m, m < d / 64 ∧ x.limbAt m ≠ 0) ∨
      (d % 64 ≠ 0 ∧ x.limbAt (d / 64) &&& BitVec.ofNat 64 (2 ^ (d % 64) - 1) ≠ 0))

/-- LSHIFT: V times 2^d modulo 2^256 with d = DIST mod 256, LOSS exactly where the product does not fit; its frame. -/
def Obligations.LshiftResult : Prop :=
  ∀ (dist : Distance) (s : State), ∃ t, exec (.lshift dist) s = .next t ∧
    t.v.val = s.v.val * 2 ^ (dist.toNat % 256) % 2 ^ 256 ∧
    (t.loss = true ↔ 2 ^ 256 ≤ s.v.val * 2 ^ (dist.toNat % 256)) ∧
    t = { s with v := t.v, loss := t.loss, ecode := 0, rspValid := true, dout := t.statusWord }

/-- RSHIFT: V divided by 2^d with d = DIST mod 256, LOSS exactly where a remainder is lost; its frame. -/
def Obligations.RshiftResult : Prop :=
  ∀ (dist : Distance) (s : State), ∃ t, exec (.rshift dist) s = .next t ∧
    t.v.val = s.v.val / 2 ^ (dist.toNat % 256) ∧
    (t.loss = true ↔ s.v.val % 2 ^ (dist.toNat % 256) ≠ 0) ∧
    t = { s with v := t.v, loss := t.loss, ecode := 0, rspValid := true, dout := t.statusWord }

/-- SHIFT by the signed distance n: nothing for 0, a left shift by n mod 256 for n > 0, a right shift by (-n) mod 256 for
n < 0, with -n exact; its frame. -/
def Obligations.ShiftResult : Prop :=
  ∀ (dist : Distance) (s : State), ∃ t, exec (.shift dist) s = .next t ∧
    (dist.toInt = 0 → t.v = s.v ∧ t.loss = false) ∧
    (∀ n : Nat, 0 < n → dist.toInt = n → t.v.val = s.v.val * 2 ^ (n % 256) % 2 ^ 256 ∧
      (t.loss = true ↔ 2 ^ 256 ≤ s.v.val * 2 ^ (n % 256))) ∧
    (∀ n : Nat, 0 < n → dist.toInt = -n → t.v.val = s.v.val / 2 ^ (n % 256) ∧
      (t.loss = true ↔ s.v.val % 2 ^ (n % 256) ≠ 0)) ∧
    t = { s with v := t.v, loss := t.loss, ecode := 0, rspValid := true, dout := t.statusWord }

/-- Laws 1, 2, 7 and 8 of R129, which the spec derives from R121 to R124: distance 0, periodicity, the zero value, and the bit that is lost first. -/
def Obligations.ShiftsArePeriodicAndKeepZero : Prop :=
  (∀ s : State, ∃ t, exec (.lshift 0) s = .next t ∧ exec (.rshift 0) s = .next t ∧ exec (.shift 0) s = .next t ∧
    t.v = s.v ∧ t.loss = false) ∧
  (∀ (dist : Distance) (s : State), dist.toNat ≤ 65535 - 256 →
    exec (.lshift (dist + 256)) s = exec (.lshift dist) s ∧ exec (.rshift (dist + 256)) s = exec (.rshift dist) s) ∧
  (∀ (dist : Distance) (s : State), s.v = Value.zero → ∃ t u w, exec (.lshift dist) s = .next t ∧
    exec (.rshift dist) s = .next u ∧ exec (.shift dist) s = .next w ∧ t.v = Value.zero ∧ u.v = Value.zero ∧
    w.v = Value.zero ∧ t.loss = false ∧ u.loss = false ∧ w.loss = false) ∧
  (∀ (x : Value) (d : Nat), 1 ≤ d → d ≤ 255 → (x.bit 255 = true → lossLeft x d = true) ∧
    (x.bit 0 = true → lossRight x d = true))

/-- Laws 3 and 4 of R129, which the spec derives: a shift loses exactly the set bits that leave the value, and no loss means that none did. -/
def Obligations.ShiftsNeverCreateSetBits : Prop :=
  ∀ (x : Value) (d : Nat), d ≤ 255 →
    popcount (lsh x d) + setBitsWhere x (fun i => decide (256 ≤ i + d)) = popcount x ∧
    popcount (rsh x d) + setBitsWhere x (fun i => decide (i < d)) = popcount x ∧
    (lossLeft x d = false ↔ popcount (lsh x d) = popcount x) ∧
    (lossRight x d = false ↔ popcount (rsh x d) = popcount x)

/-- Law 5 of R129, which the spec derives: no loss exactly where the opposite shift restores the value. -/
def Obligations.NoLossMeansReversible : Prop :=
  ∀ (x : Value) (d : Nat), d ≤ 255 →
    (lossLeft x d = false ↔ rsh (lsh x d) d = x) ∧ (lossRight x d = false ↔ lsh (rsh x d) d = x)

/-- Law 6 of R129, which the spec derives: two shifts in one direction are one shift by the sum, and lose what it loses. -/
def Obligations.ShiftsCompose : Prop :=
  ∀ (x : Value) (a b : Nat), a + b ≤ 255 →
    lsh (lsh x a) b = lsh x (a + b) ∧ rsh (rsh x a) b = rsh x (a + b) ∧
    (lossLeft x a || lossLeft (lsh x a) b) = lossLeft x (a + b) ∧
    (lossRight x a || lossRight (rsh x a) b) = lossRight x (a + b)

/-! ### Bit queries -/

/-- GET: RES is the bit at the absolute index IDX; its frame. -/
def Obligations.GetResult : Prop :=
  ∀ (idx : BitIndex) (s : State), ∃ t, exec (.get idx) s = .next t ∧ t.res.toNat = s.v.val / 2 ^ idx.toNat % 2 ∧
    t = { s with res := t.res, ecode := 0, rspValid := true, dout := t.statusWord }

/-- POPCNT: RES is the number of 1 bits of the 256-bit number; its frame. -/
def Obligations.PopcntResult : Prop :=
  ∀ s : State, ∃ t, exec .popcnt s = .next t ∧ t.res.toNat = (List.range 256).countP (fun i => s.v.val.testBit i) ∧
    t = { s with res := t.res, ecode := 0, rspValid := true, dout := t.statusWord }

/-- HIGHBIT: RES is the least n with val(V) < 2^n; its frame. -/
def Obligations.HighbitResult : Prop :=
  ∀ s : State, ∃ t, exec .highbit s = .next t ∧ s.v.val < 2 ^ t.res.toNat ∧
    (∀ n, s.v.val < 2 ^ n → t.res.toNat ≤ n) ∧
    t = { s with res := t.res, ecode := 0, rspValid := true, dout := t.statusWord }

/-- The six laws of the queries (R154, which the spec derives from R151 to R153). -/
def Obligations.QueryLaws : Prop :=
  (∀ (i : Instr) (s : State), i.isQuery = true → ∃ t u, exec i s = .next t ∧ exec i t = .next u ∧ t.res.toNat ≤ 256 ∧
    t.v = s.v ∧ u.res = t.res) ∧
  (∀ s : State, ∃ p h, exec .popcnt s = .next p ∧ exec .highbit s = .next h ∧
    (h.res = 0 ↔ p.res = 0) ∧ (p.res = 0 ↔ s.v = Value.zero) ∧ p.res.toNat ≤ h.res.toNat ∧
    (0 < h.res.toNat →
      (∃ g, exec (.get (BitVec.ofNat 8 (h.res.toNat - 1))) s = .next g ∧ g.res = 1) ∧
      (∀ i : BitIndex, h.res.toNat ≤ i.toNat → ∃ g, exec (.get i) s = .next g ∧ g.res = 0)) ∧
    p.res.toNat = ((List.range 256).map fun i =>
      match exec (.get (BitVec.ofNat 8 i)) s with
      | .next g => g.res.toNat
      | _ => 0).sum)

/-! ### Range fill -/

/-- R170: the legal bounds, and the three definitions of the mask: bit by bit, as a number, and by limbs. -/
def Obligations.FillMaskDefinitionsAgree : Prop :=
  ∀ start stop : Nat, (fillOk start stop = true ↔ start ≤ stop ∧ stop ≤ 256) ∧
    (fillOk start stop = true →
      (∀ i < 256, (fillMask start stop).bit i = decide (start ≤ i ∧ i < stop)) ∧
      fillMask start stop = Value.pat (2 ^ stop - 2 ^ start) ∧
      (∀ j < 4, (fillMask start stop).limbAt j =
        if max start (64 * j) < min stop (64 * j + 64) then
          BitVec.ofNat 64 (2 ^ (min stop (64 * j + 64) - max start (64 * j)) - 1) <<< (max start (64 * j) - 64 * j)
        else 0))

/-- FILL with legal bounds sets the bits of the half-open range and keeps every other bit; its frame. -/
def Obligations.FillResult : Prop :=
  ∀ (start stop : Bound) (s : State), start.toNat ≤ stop.toNat → stop.toNat ≤ 256 →
    ∃ t, exec (.fill start stop) s = .next t ∧
      (∀ i < 256, t.v.bit i = (s.v.bit i || decide (start.toNat ≤ i ∧ i < stop.toNat))) ∧
      t = { s with v := t.v, ecode := 0, rspValid := true, dout := t.statusWord }

/-- FILL with any other bounds is rejected with FILL_RANGE (3) and leaves V unchanged. -/
def Obligations.FillOutOfRangeIsRejected : Prop :=
  ∀ (start stop : Bound) (s : State), stop.toNat < start.toNat ∨ 256 < stop.toNat →
    ∃ t, exec (.fill start stop) s = .next t ∧
      t = { s with ecode := 3, sticky := true, rspValid := true, dout := statusOf s.res s.loss 3 true }

/-- The five laws of FILL (R172, which the spec derives from R170 and R171). -/
def Obligations.FillLaws : Prop :=
  (∀ (i : Nat) (s : State), i < 256 → s.v = Value.zero → ∃ t,
    exec (.fill (BitVec.ofNat 9 i) (BitVec.ofNat 9 (i + 1))) s = .next t ∧ ∀ k < 256, t.v.bit k = decide (k = i)) ∧
  (∀ (start stop : Bound) (s : State), fillOk start.toNat stop.toNat = true → ∃ t u p h,
    exec (.fill start stop) s = .next t ∧ exec (.fill start stop) t = .next u ∧ u.v = t.v ∧
    stop.toNat - start.toNat ≤ popcount t.v ∧ exec .popcnt t = .next p ∧ exec .highbit t = .next h ∧
    (s.v = Value.zero → start.toNat < stop.toNat →
      p.res.toNat = stop.toNat - start.toNat ∧ h.res.toNat = stop.toNat)) ∧
  (∀ (a b c : Bound) (s : State), a.toNat ≤ b.toNat → b.toNat ≤ c.toNat → c.toNat ≤ 256 → ∃ t u,
    exec (.fill a b) s = .next t ∧ exec (.fill b c) t = .next u ∧ exec (.fill a c) s = .next u)

/-! ### Bitwise combinators -/

/-- IOR, AND and XOR, bit by bit over all 256 bits, with the operand that S selects; their frame. -/
def Obligations.BitwiseResult : Prop :=
  ∀ (op : OpSel) (s : State),
    (∃ t, exec (.ior op) s = .next t ∧ (∀ i < 256, t.v.bit i = (s.v.bit i || (s.selected op).bit i)) ∧
      t = { s with v := t.v, ecode := 0, rspValid := true, dout := t.statusWord }) ∧
    (∃ t, exec (.and op) s = .next t ∧ (∀ i < 256, t.v.bit i = (s.v.bit i && (s.selected op).bit i)) ∧
      t = { s with v := t.v, ecode := 0, rspValid := true, dout := t.statusWord }) ∧
    (∃ t, exec (.xor op) s = .next t ∧ (∀ i < 256, t.v.bit i = (s.v.bit i != (s.selected op).bit i)) ∧
      t = { s with v := t.v, ecode := 0, rspValid := true, dout := t.statusWord })

/-- The S bit: 0 selects B, 1 selects V; and the aliased forms yield V, V and zero. -/
def Obligations.AliasedOperandIsV : Prop :=
  (∀ s : State, s.selected .b = s.b ∧ s.selected .v = s.v) ∧
  (∀ w : CommandWord, selField w = if w.getLsbD 8 then .v else .b) ∧
  (∀ s : State, ∃ t u w, exec (.ior .v) s = .next t ∧ exec (.and .v) s = .next u ∧ exec (.xor .v) s = .next w ∧
    t.v = s.v ∧ u.v = s.v ∧ w.v = Value.zero)

/-- The five laws of the combinators (R184, which the spec derives from R181 to R183). -/
def Obligations.BitwiseLaws : Prop :=
  (∀ (op : OpSel) (s s' : State) (j : Nat), j < 4 → s.v.limbAt j = s'.v.limbAt j → s.b.limbAt j = s'.b.limbAt j →
    ∀ i ∈ [Instr.ior op, Instr.and op, Instr.xor op], ∃ t t', exec i s = .next t ∧ exec i s' = .next t' ∧
      t.v.limbAt j = t'.v.limbAt j) ∧
  (∀ s : State, ∃ t u, exec (.xor .b) s = .next t ∧ exec (.xor .b) t = .next u ∧ u.v = s.v) ∧
  (∀ s : State, ∀ i ∈ [Instr.ior .v, Instr.and .v], ∃ t, exec i s = .next t ∧
    t = { s with ecode := 0, rspValid := true, dout := t.statusWord }) ∧
  (∀ s : State, ∀ i ∈ [Instr.ior .b, Instr.and .b, Instr.xor .b], ∃ t, exec i s = .next t ∧ t.b = s.b) ∧
  (∀ (op : OpSel) (s : State), ∃ t u, exec (.ior op) s = .next t ∧ exec (.and op) s = .next u ∧
    popcount s.v ≤ popcount t.v ∧ popcount u.v ≤ popcount s.v)

/-! ### The assembler's pseudo-instructions, and launch states -/

/-- The effect column of R78: each pseudo-instruction's commands, presented one per cycle, do what the table says, from any
state. -/
def Obligations.PseudoInstructionsHaveTheirEffect : Prop :=
  ∀ s : State,
    (∃ t, Host.Core.run core 1 (s.present AsmLine.zero.commands) = .next t ∧ t.v = Value.zero) ∧
    (∃ t, Host.Core.run core 1 (s.present AsmLine.ones.commands) = .next t ∧ ∀ i < 256, t.v.bit i = true) ∧
    (∀ i < 256, ∃ t, Host.Core.run core 1 (s.present (AsmLine.setbit i).commands) = .next t ∧
      ∀ k < 256, t.v.bit k = (s.v.bit k || decide (k = i))) ∧
    (∀ a3 a2 a1 a0 : Nat, ∃ t, Host.Core.run core 4 (s.present (AsmLine.ldv a3 a2 a1 a0).commands) = .next t ∧
      t.b = s.b ∧
      t.v = Value.tuple (BitVec.ofNat 64 a3) (BitVec.ofNat 64 a2) (BitVec.ofNat 64 a1) (BitVec.ofNat 64 a0)) ∧
    (∀ a3 a2 a1 a0 : Nat, ∃ t, Host.Core.run core 4 (s.present (AsmLine.ldb a3 a2 a1 a0).commands) = .next t ∧
      t.v = s.v ∧
      t.b = Value.tuple (BitVec.ofNat 64 a3) (BitVec.ofNat 64 a2) (BitVec.ofNat 64 a1) (BitVec.ofNat 64 a0)) ∧
    (∀ j < 4, ∃ t, Host.Core.run core (j + 1) (s.present AsmLine.stv.commands) = .next t ∧ t.v = s.v ∧
      t.rspValid = true ∧ t.dout = s.v.limbAt j) ∧
    (∃ t, Host.Core.run core 2 (s.present AsmLine.movvb.commands) = .next t ∧ t.v = s.b ∧ t.b = s.b)

/-- U9 and U11: a state the block never produces is refused as a launch state, and no other is. The reading is the model's
(log entry 5). -/
def Obligations.LaunchRefusesUnreachableStatus : Prop :=
  ∀ s : State, (s.launch = .next s ↔ s.LegalStatus) ∧
    (4 ≤ s.ecode.toNat → s.launch = .refused .launchEcode) ∧
    (s.ecode.toNat ≤ 3 → 257 ≤ s.res.toNat → s.launch = .refused .launchRes)

/-! ### The whole machine against its numeric reading -/

/-- Every command, by limbs, does to the 256-bit numbers what the numeric definitions say, and answers the same response. -/
def Obligations.ExecRefinesNumericReading : Prop :=
  ∀ (i : Instr) (s : State), ∃ t, exec i s = .next t ∧ t.rspValid = true ∧
    (t.numeric, t.dout.toNat) = numExec i s.pins.din s.numeric

/-- Every presented command word, legal or not, does what the command step of R74 says: the checks against the opcode
table, in order, then the command on the 256-bit numbers; and answers its response. -/
def Obligations.AcceptedCommandIsTheCommandStep : Prop :=
  ∀ s : State, s.accepting = true → ∃ t, step s = .next t ∧ t.rspValid = true ∧
    (t.numeric, t.dout.toNat) = numCommand { cmd := s.pins.cmd, din := s.pins.din } s.numeric

/-- A run of any length, from any state, under any schedule of commands, idle cycles and resets, is the fold of the numeric
edges in the order of the cycles: one at a time, each seeing all of the earlier ones and none of the later (R49). That
nothing is presented once the schedule has run out is the model's choice (log entry 2). -/
def Obligations.RunIsTheFoldOfItsEdges : Prop :=
  ∀ (n : Nat) (s : State), ∃ t, Host.Core.run core n s = .next t ∧ t.numeric = (coming s n).foldl numEdge s.numeric
end

