-- ==== Sys2Proof/Laws/State.lean ====
section
/-! SUPPORT. One lemma for each field and each named update of State (Machine/Ops.lean, Machine/Port.lean): what the field
is after the update. All are true by rfl and tagged simp, so that no proof unfolds a record update. -/

namespace Sys2Proof.Machine

variable (s : State)

@[simp] theorem State.setV_v (x : Value) : (s.setV x).v = x := rfl
@[simp] theorem State.setV_b (x : Value) : (s.setV x).b = s.b := rfl
@[simp] theorem State.setV_res (x : Value) : (s.setV x).res = s.res := rfl
@[simp] theorem State.setV_loss (x : Value) : (s.setV x).loss = s.loss := rfl
@[simp] theorem State.setV_ecode (x : Value) : (s.setV x).ecode = s.ecode := rfl
@[simp] theorem State.setV_sticky (x : Value) : (s.setV x).sticky = s.sticky := rfl
@[simp] theorem State.setV_rspValid (x : Value) : (s.setV x).rspValid = s.rspValid := rfl
@[simp] theorem State.setV_dout (x : Value) : (s.setV x).dout = s.dout := rfl
@[simp] theorem State.setV_pins (x : Value) : (s.setV x).pins = s.pins := rfl
@[simp] theorem State.setV_schedule (x : Value) : (s.setV x).schedule = s.schedule := rfl
@[simp] theorem State.setV_freeIndex (x : Value) : (s.setV x).freeIndex = s.freeIndex := rfl

@[simp] theorem State.setB_v (x : Value) : (s.setB x).v = s.v := rfl
@[simp] theorem State.setB_b (x : Value) : (s.setB x).b = x := rfl
@[simp] theorem State.setB_res (x : Value) : (s.setB x).res = s.res := rfl
@[simp] theorem State.setB_loss (x : Value) : (s.setB x).loss = s.loss := rfl
@[simp] theorem State.setB_ecode (x : Value) : (s.setB x).ecode = s.ecode := rfl
@[simp] theorem State.setB_sticky (x : Value) : (s.setB x).sticky = s.sticky := rfl
@[simp] theorem State.setB_rspValid (x : Value) : (s.setB x).rspValid = s.rspValid := rfl
@[simp] theorem State.setB_dout (x : Value) : (s.setB x).dout = s.dout := rfl
@[simp] theorem State.setB_pins (x : Value) : (s.setB x).pins = s.pins := rfl
@[simp] theorem State.setB_schedule (x : Value) : (s.setB x).schedule = s.schedule := rfl
@[simp] theorem State.setB_freeIndex (x : Value) : (s.setB x).freeIndex = s.freeIndex := rfl

@[simp] theorem State.setRes_v (r : ResField) : (s.setRes r).v = s.v := rfl
@[simp] theorem State.setRes_b (r : ResField) : (s.setRes r).b = s.b := rfl
@[simp] theorem State.setRes_res (r : ResField) : (s.setRes r).res = r := rfl
@[simp] theorem State.setRes_loss (r : ResField) : (s.setRes r).loss = s.loss := rfl
@[simp] theorem State.setRes_ecode (r : ResField) : (s.setRes r).ecode = s.ecode := rfl
@[simp] theorem State.setRes_sticky (r : ResField) : (s.setRes r).sticky = s.sticky := rfl
@[simp] theorem State.setRes_rspValid (r : ResField) : (s.setRes r).rspValid = s.rspValid := rfl
@[simp] theorem State.setRes_dout (r : ResField) : (s.setRes r).dout = s.dout := rfl
@[simp] theorem State.setRes_pins (r : ResField) : (s.setRes r).pins = s.pins := rfl
@[simp] theorem State.setRes_schedule (r : ResField) : (s.setRes r).schedule = s.schedule := rfl
@[simp] theorem State.setRes_freeIndex (r : ResField) : (s.setRes r).freeIndex = s.freeIndex := rfl

@[simp] theorem State.setLoss_v (f : Bool) : (s.setLoss f).v = s.v := rfl
@[simp] theorem State.setLoss_b (f : Bool) : (s.setLoss f).b = s.b := rfl
@[simp] theorem State.setLoss_res (f : Bool) : (s.setLoss f).res = s.res := rfl
@[simp] theorem State.setLoss_loss (f : Bool) : (s.setLoss f).loss = f := rfl
@[simp] theorem State.setLoss_ecode (f : Bool) : (s.setLoss f).ecode = s.ecode := rfl
@[simp] theorem State.setLoss_sticky (f : Bool) : (s.setLoss f).sticky = s.sticky := rfl
@[simp] theorem State.setLoss_rspValid (f : Bool) : (s.setLoss f).rspValid = s.rspValid := rfl
@[simp] theorem State.setLoss_dout (f : Bool) : (s.setLoss f).dout = s.dout := rfl
@[simp] theorem State.setLoss_pins (f : Bool) : (s.setLoss f).pins = s.pins := rfl
@[simp] theorem State.setLoss_schedule (f : Bool) : (s.setLoss f).schedule = s.schedule := rfl
@[simp] theorem State.setLoss_freeIndex (f : Bool) : (s.setLoss f).freeIndex = s.freeIndex := rfl

@[simp] theorem State.setEcode_v (e : EcodeField) : (s.setEcode e).v = s.v := rfl
@[simp] theorem State.setEcode_b (e : EcodeField) : (s.setEcode e).b = s.b := rfl
@[simp] theorem State.setEcode_res (e : EcodeField) : (s.setEcode e).res = s.res := rfl
@[simp] theorem State.setEcode_loss (e : EcodeField) : (s.setEcode e).loss = s.loss := rfl
@[simp] theorem State.setEcode_ecode (e : EcodeField) : (s.setEcode e).ecode = e := rfl
@[simp] theorem State.setEcode_sticky (e : EcodeField) : (s.setEcode e).sticky = s.sticky := rfl
@[simp] theorem State.setEcode_rspValid (e : EcodeField) : (s.setEcode e).rspValid = s.rspValid := rfl
@[simp] theorem State.setEcode_dout (e : EcodeField) : (s.setEcode e).dout = s.dout := rfl
@[simp] theorem State.setEcode_pins (e : EcodeField) : (s.setEcode e).pins = s.pins := rfl
@[simp] theorem State.setEcode_schedule (e : EcodeField) : (s.setEcode e).schedule = s.schedule := rfl
@[simp] theorem State.setEcode_freeIndex (e : EcodeField) : (s.setEcode e).freeIndex = s.freeIndex := rfl

@[simp] theorem State.setSticky_v (f : Bool) : (s.setSticky f).v = s.v := rfl
@[simp] theorem State.setSticky_b (f : Bool) : (s.setSticky f).b = s.b := rfl
@[simp] theorem State.setSticky_res (f : Bool) : (s.setSticky f).res = s.res := rfl
@[simp] theorem State.setSticky_loss (f : Bool) : (s.setSticky f).loss = s.loss := rfl
@[simp] theorem State.setSticky_ecode (f : Bool) : (s.setSticky f).ecode = s.ecode := rfl
@[simp] theorem State.setSticky_sticky (f : Bool) : (s.setSticky f).sticky = f := rfl
@[simp] theorem State.setSticky_rspValid (f : Bool) : (s.setSticky f).rspValid = s.rspValid := rfl
@[simp] theorem State.setSticky_dout (f : Bool) : (s.setSticky f).dout = s.dout := rfl
@[simp] theorem State.setSticky_pins (f : Bool) : (s.setSticky f).pins = s.pins := rfl
@[simp] theorem State.setSticky_schedule (f : Bool) : (s.setSticky f).schedule = s.schedule := rfl
@[simp] theorem State.setSticky_freeIndex (f : Bool) : (s.setSticky f).freeIndex = s.freeIndex := rfl

@[simp] theorem State.respond_v (d : Limb) : (s.respond d).v = s.v := rfl
@[simp] theorem State.respond_b (d : Limb) : (s.respond d).b = s.b := rfl
@[simp] theorem State.respond_res (d : Limb) : (s.respond d).res = s.res := rfl
@[simp] theorem State.respond_loss (d : Limb) : (s.respond d).loss = s.loss := rfl
@[simp] theorem State.respond_ecode (d : Limb) : (s.respond d).ecode = s.ecode := rfl
@[simp] theorem State.respond_sticky (d : Limb) : (s.respond d).sticky = s.sticky := rfl
@[simp] theorem State.respond_rspValid (d : Limb) : (s.respond d).rspValid = true := rfl
@[simp] theorem State.respond_dout (d : Limb) : (s.respond d).dout = d := rfl
@[simp] theorem State.respond_pins (d : Limb) : (s.respond d).pins = s.pins := rfl
@[simp] theorem State.respond_schedule (d : Limb) : (s.respond d).schedule = s.schedule := rfl
@[simp] theorem State.respond_freeIndex (d : Limb) : (s.respond d).freeIndex = s.freeIndex := rfl

@[simp] theorem State.noResponse_v : (s.noResponse).v = s.v := rfl
@[simp] theorem State.noResponse_b : (s.noResponse).b = s.b := rfl
@[simp] theorem State.noResponse_res : (s.noResponse).res = s.res := rfl
@[simp] theorem State.noResponse_loss : (s.noResponse).loss = s.loss := rfl
@[simp] theorem State.noResponse_ecode : (s.noResponse).ecode = s.ecode := rfl
@[simp] theorem State.noResponse_sticky : (s.noResponse).sticky = s.sticky := rfl
@[simp] theorem State.noResponse_rspValid : (s.noResponse).rspValid = false := rfl
@[simp] theorem State.noResponse_dout : (s.noResponse).dout = Config.idleDout s.freeIndex := rfl
@[simp] theorem State.noResponse_pins : (s.noResponse).pins = s.pins := rfl
@[simp] theorem State.noResponse_schedule : (s.noResponse).schedule = s.schedule := rfl
@[simp] theorem State.noResponse_freeIndex : (s.noResponse).freeIndex = s.freeIndex + 1 := rfl

@[simp] theorem State.clearAll_v : (s.clearAll).v = Value.zero := rfl
@[simp] theorem State.clearAll_b : (s.clearAll).b = Value.zero := rfl
@[simp] theorem State.clearAll_res : (s.clearAll).res = 0 := rfl
@[simp] theorem State.clearAll_loss : (s.clearAll).loss = false := rfl
@[simp] theorem State.clearAll_ecode : (s.clearAll).ecode = 0 := rfl
@[simp] theorem State.clearAll_sticky : (s.clearAll).sticky = false := rfl
@[simp] theorem State.clearAll_rspValid : (s.clearAll).rspValid = s.rspValid := rfl
@[simp] theorem State.clearAll_dout : (s.clearAll).dout = s.dout := rfl
@[simp] theorem State.clearAll_pins : (s.clearAll).pins = s.pins := rfl
@[simp] theorem State.clearAll_schedule : (s.clearAll).schedule = s.schedule := rfl
@[simp] theorem State.clearAll_freeIndex : (s.clearAll).freeIndex = s.freeIndex := rfl

@[simp] theorem State.advance_v : (s.advance).v = s.v := rfl
@[simp] theorem State.advance_b : (s.advance).b = s.b := rfl
@[simp] theorem State.advance_res : (s.advance).res = s.res := rfl
@[simp] theorem State.advance_loss : (s.advance).loss = s.loss := rfl
@[simp] theorem State.advance_ecode : (s.advance).ecode = s.ecode := rfl
@[simp] theorem State.advance_sticky : (s.advance).sticky = s.sticky := rfl
@[simp] theorem State.advance_rspValid : (s.advance).rspValid = s.rspValid := rfl
@[simp] theorem State.advance_dout : (s.advance).dout = s.dout := rfl
@[simp] theorem State.advance_pins : (s.advance).pins = s.schedule.head?.getD Pins.idle := rfl
@[simp] theorem State.advance_schedule : (s.advance).schedule = s.schedule.tail := rfl
@[simp] theorem State.advance_freeIndex : (s.advance).freeIndex = s.freeIndex := rfl

@[simp] theorem State.presentWord_v (w : CommandWord) : (s.presentWord w).v = s.v := rfl
@[simp] theorem State.presentWord_b (w : CommandWord) : (s.presentWord w).b = s.b := rfl
@[simp] theorem State.presentWord_res (w : CommandWord) : (s.presentWord w).res = s.res := rfl
@[simp] theorem State.presentWord_loss (w : CommandWord) : (s.presentWord w).loss = s.loss := rfl
@[simp] theorem State.presentWord_ecode (w : CommandWord) : (s.presentWord w).ecode = s.ecode := rfl
@[simp] theorem State.presentWord_sticky (w : CommandWord) : (s.presentWord w).sticky = s.sticky := rfl
@[simp] theorem State.presentWord_rspValid (w : CommandWord) : (s.presentWord w).rspValid = s.rspValid := rfl
@[simp] theorem State.presentWord_dout (w : CommandWord) : (s.presentWord w).dout = s.dout := rfl
@[simp] theorem State.presentWord_pins (w : CommandWord) : (s.presentWord w).pins = { s.pins with rst := false, cmdValid := true, cmd := w } := rfl
@[simp] theorem State.presentWord_schedule (w : CommandWord) : (s.presentWord w).schedule = s.schedule := rfl
@[simp] theorem State.presentWord_freeIndex (w : CommandWord) : (s.presentWord w).freeIndex = s.freeIndex := rfl

end Sys2Proof.Machine
end

