-- ==== Sys2Proof/Laws/Ops.lean ====
section
/-! SUPPORT. What each shared operation can do, said once: the limbs and bits of a value, the response, the end of an
accepted command, the rejection, the edges of the clock. -/

namespace Sys2Proof

/-- After `X.L[j] <- d`, limb k is d where k is j, and unchanged elsewhere. -/
theorem Value.limbAt_setLimb (x : Value) {j k : Nat} (d : Limb) (hj : j < 4) :
    (x.setLimb j d).limbAt k = if k = j then d else x.limbAt k := by
  interval_cases j <;> rcases k with _ | _ | _ | _ | k <;> simp [setLimb, limbAt]

/-- Limb j of a value built limb by limb. -/
theorem Value.limbAt_ofLimbs (f : Nat → Limb) {j : Nat} (hj : j < 4) : (Value.ofLimbs f).limbAt j = f j := by
  interval_cases j <;> rfl

/-- Two values with equal limbs are equal (R8). -/
theorem Value.ext_limbs {x y : Value} (h : ∀ j < 4, x.limbAt j = y.limbAt j) : x = y := by
  obtain ⟨x0, x1, x2, x3⟩ := x
  obtain ⟨y0, y1, y2, y3⟩ := y
  have h0 := h 0 (by decide)
  have h1 := h 1 (by decide)
  have h2 := h 2 (by decide)
  have h3 := h 3 (by decide)
  simp only [limbAt] at h0 h1 h2 h3
  rw [h0, h1, h2, h3]

/-- `val` of a 256-bit value is below 2^256 (R8). -/
theorem Value.val_lt (x : Value) : x.val < 2 ^ 256 := by
  have h0 := x.l0.isLt
  have h1 := x.l1.isLt
  have h2 := x.l2.isLt
  have h3 := x.l3.isLt
  unfold val
  omega

/-- No two values have the same number (R8). -/
theorem Value.val_injective {x y : Value} (h : x.val = y.val) : x = y := by
  obtain ⟨x0, x1, x2, x3⟩ := x
  obtain ⟨y0, y1, y2, y3⟩ := y
  simp only [val] at h
  have a0 := x0.isLt; have a1 := x1.isLt; have a2 := x2.isLt; have a3 := x3.isLt
  have b0 := y0.isLt; have b1 := y1.isLt; have b2 := y2.isLt; have b3 := y3.isLt
  have e0 : x0.toNat = y0.toNat := by omega
  have e1 : x1.toNat = y1.toNat := by omega
  have e2 : x2.toNat = y2.toNat := by omega
  have e3 : x3.toNat = y3.toNat := by omega
  rw [BitVec.eq_of_toNat_eq e0, BitVec.eq_of_toNat_eq e1, BitVec.eq_of_toNat_eq e2, BitVec.eq_of_toNat_eq e3]

namespace Machine

variable (s : State)

/-- All that an accepted command's end does (R74, R79). -/
theorem State.accept_eq :
    s.accept = { s with ecode := 0, rspValid := true, dout := statusOf s.res s.loss 0 s.sticky } := rfl

/-- All that an accepted RDV's or RDB's end does (R74, R79). -/
theorem State.acceptRead_eq (d : Limb) : s.acceptRead d = { s with ecode := 0, rspValid := true, dout := d } := rfl

/-- All that RDST does (R108). -/
theorem State.respondStatus_eq :
    s.respondStatus = { s with rspValid := true, dout := statusOf s.res s.loss s.ecode s.sticky } := rfl

/-- All that a rejection does (R203). -/
theorem State.reject_eq (e : ErrorCode) :
    s.reject e =
      { s with ecode := e.code, sticky := true, rspValid := true, dout := statusOf s.res s.loss e.code true } := rfl

/-- All that a left shift writes (R125). -/
theorem State.shiftLeft_eq (d : Nat) : s.shiftLeft d = { s with v := lsh s.v d, loss := lossLeft s.v d } := rfl

/-- All that a right shift writes (R126). -/
theorem State.shiftRight_eq (d : Nat) : s.shiftRight d = { s with v := rsh s.v d, loss := lossRight s.v d } := rfl

/-- All that a reset edge does (R240, R241). -/
theorem State.resetEdge_eq :
    s.resetEdge =
      { v := Value.zero, b := Value.zero, res := 0, loss := false, ecode := 0, sticky := false, rspValid := false,
        dout := Config.idleDout s.freeIndex, pins := s.schedule.head?.getD Pins.idle, schedule := s.schedule.tail,
        freeIndex := s.freeIndex + 1 } := rfl

/-- All that an idle edge does (R62). -/
theorem State.idleEdge_eq :
    s.idleEdge =
      { s with rspValid := false, dout := Config.idleDout s.freeIndex, pins := s.schedule.head?.getD Pins.idle,
               schedule := s.schedule.tail, freeIndex := s.freeIndex + 1 } := rfl

/-- An outcome that moved on is a next state only where the outcome was one. -/
theorem advanceOutcome_next {o : Host.Outcome State Fault Refusal} {t : State} (h : advanceOutcome o = .next t) :
    ∃ u, o = .next u ∧ t = u.advance := by
  cases o with
  | next u => exact ⟨u, rfl, by simpa [advanceOutcome] using h.symm⟩
  | fault r => cases r
  | refused r => simp [advanceOutcome] at h

/-- Everything one edge of the clock can do: reset, a rejection by the decoder, a command's own meaning, or nothing. -/
theorem clockEdge_cases {t : State} (h : clockEdge s = .next t) :
    (s.pins.rst = true ∧ t = s.resetEdge) ∨
    (s.pins.rst = false ∧ s.pins.cmdValid = false ∧ t = s.idleEdge) ∨
    (s.pins.rst = false ∧ s.pins.cmdValid = true ∧
      ((∃ e, decode s.pins.cmd = .error e ∧ t = (s.reject e).advance) ∨
       (∃ i u, decode s.pins.cmd = .ok i ∧ exec i s = .next u ∧ t = u.advance))) := by
  unfold clockEdge at h
  cases hr : s.pins.rst
  · cases hv : s.pins.cmdValid
    · refine .inr (.inl ⟨rfl, rfl, ?_⟩)
      simpa [hr, hv] using h.symm
    · refine .inr (.inr ⟨rfl, rfl, ?_⟩)
      simp only [hr, hv, if_true, Bool.false_eq_true, if_false] at h
      obtain ⟨u, hu, rfl⟩ := advanceOutcome_next h
      unfold commandStep at hu
      cases hd : decode s.pins.cmd with
      | error e =>
        rw [hd] at hu
        have hu' : s.reject e = u := by simpa using hu
        exact .inl ⟨e, rfl, by rw [hu']⟩
      | ok i =>
        rw [hd] at hu
        exact .inr ⟨i, u, rfl, hu, rfl⟩
  · refine .inl ⟨rfl, ?_⟩
    simpa [hr] using h.symm

end Machine

end Sys2Proof
end

