-- ==== Sys2Proof/Laws/Exec.lean ====
section
/-! SUPPORT. The operand forms, said once, and the equation of each command's arm in the named updates, so that no proof
unfolds the dispatch or a meaning. -/

namespace Sys2Proof.Machine

variable (s : State)

@[simp] theorem State.selected_b : s.selected .b = s.b := rfl
@[simp] theorem State.selected_v : s.selected .v = s.v := rfl

/-- Every limb after a limb write through a LIMB field (R41, R43). -/
theorem limbAt_writeLimb (x : Value) (limb : LimbIndex) (d : Limb) (k : Nat) :
    (writeLimb x limb d).limbAt k = if k = limb.toNat then d else x.limbAt k :=
  Value.limbAt_setLimb x d limb.isLt

/-- The mask by 255 is the remainder by 256 (R120). -/
theorem reduceDistance_eq (m : Nat) : reduceDistance m = m % 256 := Nat.and_two_pow_sub_one_eq_mod m 8

/-- A reduced distance is at most 255 (R120). -/
theorem reduceDistance_le (m : Nat) : reduceDistance m ≤ 255 := by
  rw [reduceDistance_eq]
  omega

/-- `fill_ok` as a proposition (R170). -/
theorem fillOk_iff {start stop : Nat} : fillOk start stop = true ↔ start ≤ stop ∧ stop ≤ 256 := by
  simp [fillOk]

/-- Limb j of a fill mask (R170). -/
theorem limbAt_fillMask (start stop : Nat) {j : Nat} (hj : j < 4) :
    (fillMask start stop).limbAt j = fillMaskLimb start stop j :=
  Value.limbAt_ofLimbs _ hj

/-- Limb j of a lane-wise combination (R184, law 1). -/
theorem limbAt_laneWise (f : Limb → Limb → Limb) (x y : Value) {j : Nat} (hj : j < 4) :
    (laneWise f x y).limbAt j = f (x.limbAt j) (y.limbAt j) :=
  Value.limbAt_ofLimbs _ hj

theorem exec_nop : exec .nop s = .next s.accept := rfl
theorem exec_wrv (limb : LimbIndex) : exec (.wrv limb) s = .next (s.setV (writeLimb s.v limb s.pins.din)).accept := rfl
theorem exec_rdv (limb : LimbIndex) : exec (.rdv limb) s = .next (s.acceptRead (limbOperand s.v limb)) := rfl
theorem exec_wrb (limb : LimbIndex) : exec (.wrb limb) s = .next (s.setB (writeLimb s.b limb s.pins.din)).accept := rfl
theorem exec_rdb (limb : LimbIndex) : exec (.rdb limb) s = .next (s.acceptRead (limbOperand s.b limb)) := rfl
theorem exec_rdst : exec .rdst s = .next s.respondStatus := rfl
theorem exec_clrst : exec .clrst s = .next ((((s.setRes 0).setLoss false).setEcode 0).setSticky false).accept := rfl
theorem exec_lshift (dist : Distance) : exec (.lshift dist) s = .next (s.shiftLeft (unsignedDistance dist)).accept := rfl
theorem exec_rshift (dist : Distance) : exec (.rshift dist) s = .next (s.shiftRight (unsignedDistance dist)).accept := rfl
theorem exec_get (idx : BitIndex) :
    exec (.get idx) s = .next (s.setRes ((BitVec.ofBool (s.v.bit idx.toNat)).zeroExtend 9)).accept := rfl
theorem exec_popcnt : exec .popcnt s = .next (s.setRes (BitVec.ofNat 9 (popcount s.v))).accept := rfl
theorem exec_highbit : exec .highbit s = .next (s.setRes (BitVec.ofNat 9 (bitLength s.v))).accept := rfl
theorem exec_ior (op : OpSel) :
    exec (.ior op) s = .next (s.setV (laneWise (fun x y => x ||| y) s.v (s.selected op))).accept := rfl
theorem exec_and (op : OpSel) :
    exec (.and op) s = .next (s.setV (laneWise (fun x y => x &&& y) s.v (s.selected op))).accept := rfl
theorem exec_xor (op : OpSel) :
    exec (.xor op) s = .next (s.setV (laneWise (fun x y => x ^^^ y) s.v (s.selected op))).accept := rfl

/-- SHIFT by 0 (R127). -/
theorem exec_shift_zero {dist : Distance} (h : signedDistance dist = 0) :
    exec (.shift dist) s = .next (s.setLoss false).accept := by
  simp [exec, execShift, h]

/-- SHIFT by a positive distance (R127). -/
theorem exec_shift_pos {dist : Distance} (h : 0 < signedDistance dist) :
    exec (.shift dist) s = .next (s.shiftLeft (reduceDistance (signedDistance dist).toNat)).accept := by
  simp [exec, execShift, h, h.ne']

/-- SHIFT by a negative distance (R127). -/
theorem exec_shift_neg {dist : Distance} (h : signedDistance dist < 0) :
    exec (.shift dist) s = .next (s.shiftRight (reduceDistance (-signedDistance dist).toNat)).accept := by
  simp [exec, execShift, h.ne, not_lt.mpr h.le]

/-- FILL with legal bounds (R171). -/
theorem exec_fill_ok {start stop : Bound} (h : fillOk start.toNat stop.toNat = true) :
    exec (.fill start stop) s = .next (s.setV (orMask s.v (fillMask start.toNat stop.toNat))).accept := by
  simp [exec, execFill, h]

/-- FILL with bounds that are not legal (R171, R203). -/
theorem exec_fill_rejected {start stop : Bound} (h : fillOk start.toNat stop.toNat = false) :
    exec (.fill start stop) s = .next (s.reject .fillRange) := by
  simp [exec, execFill, h]

end Sys2Proof.Machine
end

