-- ==== Sys2Proof/Laws/PerInstr.lean ====
section
/-! SUPPORT. The family EncodeMatchesFormat, one lemma per constructor: the encoder puts the command's opcode into the low
byte and leaves every reserved bit of the command's format 0 (R63, R64, R71). -/

namespace Sys2Proof.Laws

/-- The word of an instruction has the opcode of its command in its low byte and no reserved bit set. -/
def EncodeMatchesFormat.Statement (i : Instr) : Prop :=
  opcField (encode i) = i.opcode.byte ∧ encode i &&& i.opcode.format.reservedMask = 0

/-- Format N: the opcode byte and zeros. -/
theorem encodeN_fields (opc : OpcodeByte) :
    opcField (encodeN opc) = opc ∧ encodeN opc &&& Format.n.reservedMask = 0 := by
  refine ⟨?_, ?_⟩ <;> apply BitVec.eq_of_getLsbD_eq <;> intro i hi
  · simp only [opcField, encodeN, BitVec.getLsbD_extractLsb', BitVec.getLsbD_append]
    simp [hi]
  · simp only [encodeN, Format.reservedMask, BitVec.getLsbD_and, BitVec.getLsbD_append]
    interval_cases i <;> simp

/-- Format L: the LIMB field lies outside the reserved bits. -/
theorem encodeL_fields (limb : LimbIndex) (opc : OpcodeByte) :
    opcField (encodeL limb opc) = opc ∧ encodeL limb opc &&& Format.l.reservedMask = 0 := by
  refine ⟨?_, ?_⟩ <;> apply BitVec.eq_of_getLsbD_eq <;> intro i hi
  · simp only [opcField, encodeL, BitVec.getLsbD_extractLsb', BitVec.getLsbD_append]
    simp [hi]
  · simp only [encodeL, Format.reservedMask, BitVec.getLsbD_and, BitVec.getLsbD_append]
    interval_cases i <;> simp

/-- Format S: the S bit lies outside the reserved bits. -/
theorem encodeS_fields (op : OpSel) (opc : OpcodeByte) :
    opcField (encodeS op opc) = opc ∧ encodeS op opc &&& Format.s.reservedMask = 0 := by
  refine ⟨?_, ?_⟩ <;> apply BitVec.eq_of_getLsbD_eq <;> intro i hi
  · simp only [opcField, encodeS, BitVec.getLsbD_extractLsb', BitVec.getLsbD_append]
    simp [hi]
  · simp only [encodeS, Format.reservedMask, BitVec.getLsbD_and, BitVec.getLsbD_append]
    interval_cases i <;> simp

/-- Format I: the IDX field lies outside the reserved bits. -/
theorem encodeI_fields (idx : BitIndex) (opc : OpcodeByte) :
    opcField (encodeI idx opc) = opc ∧ encodeI idx opc &&& Format.i.reservedMask = 0 := by
  refine ⟨?_, ?_⟩ <;> apply BitVec.eq_of_getLsbD_eq <;> intro i hi
  · simp only [opcField, encodeI, BitVec.getLsbD_extractLsb', BitVec.getLsbD_append]
    simp [hi]
  · simp only [encodeI, Format.reservedMask, BitVec.getLsbD_and, BitVec.getLsbD_append]
    interval_cases i <;> simp

/-- Format D: the DIST field lies outside the reserved bits. -/
theorem encodeD_fields (dist : Distance) (opc : OpcodeByte) :
    opcField (encodeD dist opc) = opc ∧ encodeD dist opc &&& Format.d.reservedMask = 0 := by
  refine ⟨?_, ?_⟩ <;> apply BitVec.eq_of_getLsbD_eq <;> intro i hi
  · simp only [opcField, encodeD, BitVec.getLsbD_extractLsb', BitVec.getLsbD_append]
    simp [hi]
  · simp only [encodeD, Format.reservedMask, BitVec.getLsbD_and, BitVec.getLsbD_append]
    interval_cases i <;> simp

/-- Format R: the bounds lie outside the reserved bits. -/
theorem encodeR_fields (start stop : Bound) (opc : OpcodeByte) :
    opcField (encodeR start stop opc) = opc ∧ encodeR start stop opc &&& Format.r.reservedMask = 0 := by
  refine ⟨?_, ?_⟩ <;> apply BitVec.eq_of_getLsbD_eq <;> intro i hi
  · simp only [opcField, encodeR, BitVec.getLsbD_extractLsb', BitVec.getLsbD_append]
    simp [hi]
  · simp only [encodeR, Format.reservedMask, BitVec.getLsbD_and, BitVec.getLsbD_append]
    interval_cases i <;> simp

theorem EncodeMatchesFormat.nop : EncodeMatchesFormat.Statement (.nop) := encodeN_fields _

theorem EncodeMatchesFormat.wrv (limb : LimbIndex) : EncodeMatchesFormat.Statement (.wrv limb) := encodeL_fields limb _

theorem EncodeMatchesFormat.rdv (limb : LimbIndex) : EncodeMatchesFormat.Statement (.rdv limb) := encodeL_fields limb _

theorem EncodeMatchesFormat.wrb (limb : LimbIndex) : EncodeMatchesFormat.Statement (.wrb limb) := encodeL_fields limb _

theorem EncodeMatchesFormat.rdb (limb : LimbIndex) : EncodeMatchesFormat.Statement (.rdb limb) := encodeL_fields limb _

theorem EncodeMatchesFormat.rdst : EncodeMatchesFormat.Statement (.rdst) := encodeN_fields _

theorem EncodeMatchesFormat.clrst : EncodeMatchesFormat.Statement (.clrst) := encodeN_fields _

theorem EncodeMatchesFormat.lshift (dist : Distance) : EncodeMatchesFormat.Statement (.lshift dist) := encodeD_fields dist _

theorem EncodeMatchesFormat.rshift (dist : Distance) : EncodeMatchesFormat.Statement (.rshift dist) := encodeD_fields dist _

theorem EncodeMatchesFormat.shift (dist : Distance) : EncodeMatchesFormat.Statement (.shift dist) := encodeD_fields dist _

theorem EncodeMatchesFormat.get (idx : BitIndex) : EncodeMatchesFormat.Statement (.get idx) := encodeI_fields idx _

theorem EncodeMatchesFormat.popcnt : EncodeMatchesFormat.Statement (.popcnt) := encodeN_fields _

theorem EncodeMatchesFormat.highbit : EncodeMatchesFormat.Statement (.highbit) := encodeN_fields _

theorem EncodeMatchesFormat.fill (start stop : Bound) : EncodeMatchesFormat.Statement (.fill start stop) := encodeR_fields start stop _

theorem EncodeMatchesFormat.ior (op : OpSel) : EncodeMatchesFormat.Statement (.ior op) := encodeS_fields op _

theorem EncodeMatchesFormat.and (op : OpSel) : EncodeMatchesFormat.Statement (.and op) := encodeS_fields op _

theorem EncodeMatchesFormat.xor (op : OpSel) : EncodeMatchesFormat.Statement (.xor op) := encodeS_fields op _

end Sys2Proof.Laws
end

