-- ==== Sys2Proof/Tests/Slice0.lean ====
section
/-! SUPPORT. The model's own tests. Expected words and results are the spec's: the encodings of R64 and R71 written out, and
the vectors of 95_test_vectors.md, named in each comment. The last section shows, for each statement with hypotheses, a
concrete state and operands that meet them together. -/

namespace Sys2Proof.Tests

open Sys2Proof Sys2Proof.Machine

/-! ### Well-formedness: one ill-formed term for each check -/

/-- Opcode 0x07 is in no row (R72; HC13). -/
theorem test_wellformed_word_refuses_illegal_opcode : wellFormedWord 0x00000007 = false := by decide
/-- Format N, bit 8 set (HC16). -/
theorem test_wellformed_word_refuses_reserved_n : wellFormedWord 0x00000100 = false := by decide
/-- Format L, bit 10 set (HC23). -/
theorem test_wellformed_word_refuses_reserved_l : wellFormedWord 0x00000402 = false := by decide
/-- Format S, bit 9 set (HC25). -/
theorem test_wellformed_word_refuses_reserved_s : wellFormedWord 0x00000241 = false := by decide
/-- Format I, bit 16 set (HC17). -/
theorem test_wellformed_word_refuses_reserved_i : wellFormedWord 0x00010020 = false := by decide
/-- Format D, bit 10 set (HC18). -/
theorem test_wellformed_word_refuses_reserved_d : wellFormedWord 0x00000410 = false := by decide
/-- Format R, bits 31:26 set (HC20). -/
theorem test_wellformed_word_refuses_reserved_r : wellFormedWord 0xFC000030 = false := by decide
theorem test_wellformed_line_refuses_limb_4 : (AsmLine.wrv 4 0).wellFormed = false := by decide
theorem test_wellformed_line_refuses_wide_data : (AsmLine.wrb 0 (2 ^ 64)).wellFormed = false := by decide
theorem test_wellformed_line_refuses_read_limb_4 : (AsmLine.rdb 4).wellFormed = false := by decide
theorem test_wellformed_line_refuses_wide_distance : (AsmLine.lshift 65536).wellFormed = false := by decide
theorem test_wellformed_line_refuses_signed_high : (AsmLine.shift 32768).wellFormed = false := by decide
theorem test_wellformed_line_refuses_signed_low : (AsmLine.shift (-32769)).wellFormed = false := by decide
theorem test_wellformed_line_refuses_index_256 : (AsmLine.get 256).wellFormed = false := by decide
theorem test_wellformed_line_refuses_start_512 : (AsmLine.fill 512 0).wellFormed = false := by decide
theorem test_wellformed_line_refuses_end_512 : (AsmLine.fill 0 512).wellFormed = false := by decide
theorem test_wellformed_line_refuses_wide_word : (AsmLine.word (2 ^ 32)).wellFormed = false := by decide
theorem test_wellformed_line_refuses_wide_limb_of_ldv : (AsmLine.ldv 0 (2 ^ 64) 0 0).wellFormed = false := by decide
/-- R76: bounds that fit 9 bits but are no legal FILL pass, so that the rejection can be exercised. -/
theorem test_wellformed_line_admits_illegal_fill : (AsmLine.fill 5 4).wellFormed = true := by decide

/-! ### Decoding: every constructor, its word written out from R64 and R71 -/

theorem test_decode_nop : decode 0b000000000000000000000000_00000000 = .ok .nop := by rfl
theorem test_decode_wrv : decode 0b0000000000000000000000_11_00000001 = .ok (.wrv 3) := by rfl
theorem test_decode_rdv : decode 0b0000000000000000000000_10_00000010 = .ok (.rdv 2) := by rfl
theorem test_decode_wrb : decode 0b0000000000000000000000_10_00000011 = .ok (.wrb 2) := by rfl
theorem test_decode_rdb : decode 0b0000000000000000000000_01_00000100 = .ok (.rdb 1) := by rfl
theorem test_decode_rdst : decode 0b000000000000000000000000_00000101 = .ok .rdst := by rfl
theorem test_decode_clrst : decode 0b000000000000000000000000_00000110 = .ok .clrst := by rfl
theorem test_decode_lshift : decode 0b0000000001000001_00000000_00010000 = .ok (.lshift 65) := by rfl
theorem test_decode_rshift : decode 0b0000000100000001_00000000_00010001 = .ok (.rshift 257) := by rfl
theorem test_decode_shift : decode 0b1111111111111110_00000000_00010010 = .ok (.shift (-2)) := by rfl
theorem test_decode_get : decode 0b0000000000000000_10000001_00100000 = .ok (.get 129) := by rfl
theorem test_decode_popcnt : decode 0b000000000000000000000000_00100001 = .ok .popcnt := by rfl
theorem test_decode_highbit : decode 0b000000000000000000000000_00100010 = .ok .highbit := by rfl
/-- `fill 128, 129` (R77): END before START in the word. -/
theorem test_decode_fill : decode 0b000000_010000001_010000000_00110000 = .ok (.fill 128 129) := by rfl
theorem test_decode_ior : decode 0b00000000000000000000000_0_01000000 = .ok (.ior .b) := by rfl
theorem test_decode_and : decode 0b00000000000000000000000_1_01000001 = .ok (.and .v) := by rfl
theorem test_decode_xor : decode 0b00000000000000000000000_1_01000010 = .ok (.xor .v) := by rfl
/-- R77: the encoder on the widest format. -/
theorem test_encode_fill : encode (.fill 0 256) = 0x02000030 := by decide
theorem test_table_word : decodeTableWord 32 0x00008020 = some (.get 128) := by rfl

/-! ### One step from a small state -/

/-- The named values of 95_test_vectors.md section 0. -/
def one4 : Value := Value.tuple 1 1 1 1
def ones : Value := Value.tuple 0xFFFFFFFFFFFFFFFF 0xFFFFFFFFFFFFFFFF 0xFFFFFFFFFFFFFFFF 0xFFFFFFFFFFFFFFFF
def pat : Value := Value.tuple 0x0123456789ABCDEF 0xFEDCBA9876543210 0x0F0F0F0F0F0F0F0F 0x8000000000000001

/-- V, B and dout after one step that accepts the command word `w` with data `din`, from the reset state with V, B and the
four fields of STATUS replaced. -/
def after (v b : Value) (res : ResField) (loss : Bool) (ecode : EcodeField) (sticky : Bool) (w : CommandWord)
    (din : Limb) : Option (Value × Value × Limb) :=
  match step { State.reset with v, b, res, loss, ecode, sticky, pins := commandPins { cmd := w, din } } with
  | .next t => some (t.v, t.b, t.dout)
  | _ => none

/-- The same with STATUS = 0. -/
abbrev run (v b : Value) (w : CommandWord) (din : Limb) := after v b 0 false 0 false w din

/-- HC11. -/
theorem test_nop_keeps_sticky : after one4 pat 7 true 2 true 0x00000000 0 = some (one4, pat, 0x2207) := by decide
/-- HC2. -/
theorem test_wrv_limb_0 :
    run one4 pat 0x00000001 0xDEADBEEFCAFEF00D = some (Value.tuple 1 1 1 0xDEADBEEFCAFEF00D, pat, 0) := by decide
/-- HC8. -/
theorem test_wrv_keeps_loss :
    after Value.zero Value.zero 0 true 0 false 0x00000101 0x7 = some (Value.tuple 0 0 7 0, Value.zero, 0x200) := by decide
/-- HC4. -/
theorem test_rdv_limb_3 : run pat one4 0x00000302 5 = some (pat, one4, 0x0123456789ABCDEF) := by decide
/-- HC23: a rejected RDV answers STATUS. -/
theorem test_rdv_reserved : run pat one4 0x00000402 0 = some (pat, one4, 0x2800) := by decide
/-- HC5. -/
theorem test_wrb_limb_2 : run one4 Value.zero 0x00000203 5 = some (one4, Value.tuple 0 5 0 0, 0) := by decide
/-- HC6. -/
theorem test_rdb_limb_2 : run pat (Value.tuple 0 5 0 0) 0x00000204 0 = some (pat, Value.tuple 0 5 0 0, 5) := by decide
/-- HC27. -/
theorem test_rdst_keeps_ecode : after one4 pat 0 false 3 true 0x00000005 0 = some (one4, pat, 0x2C00) := by decide
/-- HC26. -/
theorem test_rdst_reserved : after one4 pat 0 false 3 true 0x00000105 0 = some (one4, pat, 0x2800) := by decide
/-- HC10. -/
theorem test_clrst : after one4 pat 0x81 true 1 true 0x00000006 0 = some (one4, pat, 0) := by decide
/-- LS4 (90_conflicts.md C1: LOSS is 1). -/
theorem test_lshift_64 : run one4 pat 0x00400010 0 = some (Value.tuple 1 1 1 0, pat, 0x200) := by decide
/-- LS16. -/
theorem test_lshift_68 :
    run pat Value.zero 0x00440010 0 = some (Value.tuple 0xEDCBA98765432100 0xF0F0F0F0F0F0F0F8 0x10 0, Value.zero, 0x200) := by
  decide
/-- RS13. -/
theorem test_rshift_130 :
    run pat Value.zero 0x00820011 0 = some (Value.tuple 0 0 0x48D159E26AF37B 0xFFB72EA61D950C84, Value.zero, 0x200) := by
  decide
/-- RS10: a bit shifted exactly to index 0 is not lost. -/
theorem test_rshift_192 : run (Value.tuple 1 0 0 0) one4 0x00C00011 0 = some (Value.tuple 0 0 0 1, one4, 0) := by decide
/-- SH15: n = -257 has the magnitude 257, reduced to 1. -/
theorem test_shift_minus_257 :
    run one4 pat 0xFEFF0012 0 =
      some (Value.tuple 0 0x8000000000000000 0x8000000000000000 0x8000000000000000, pat, 0x200) := by decide
/-- SH7: n = -32768 shifts by 0. -/
theorem test_shift_most_negative : run one4 pat 0x80000012 0 = some (one4, pat, 0) := by decide
/-- GT6. -/
theorem test_get_64 : run pat one4 0x00004020 0 = some (pat, one4, 1) := by decide
/-- GT13. -/
theorem test_get_254 : run (Value.tuple 0x8000000000000000 0 0 0) one4 0x0000FE20 0
    = some (Value.tuple 0x8000000000000000 0 0 0, one4, 0) := by decide
/-- PC2: 256 needs all nine bits of RES. -/
theorem test_popcnt_ones : run ones one4 0x00000021 0 = some (ones, one4, 0x100) := by decide
/-- PC6. -/
theorem test_popcnt_pattern : run pat one4 0x00000021 0 = some (pat, one4, 0x62) := by decide
/-- HB8. -/
theorem test_highbit_middle_limb :
    run (Value.tuple 0 0x10 0xFFFF 0) one4 0x00000022 0 = some (Value.tuple 0 0x10 0xFFFF 0, one4, 0x85) := by decide
/-- HB1. -/
theorem test_highbit_zero : run Value.zero one4 0x00000022 0 = some (Value.zero, one4, 0) := by decide
/-- FL9. -/
theorem test_fill_across_limbs :
    run Value.zero one4 0x01906430 0 = some (Value.tuple 0xFF 0xFFFFFFFFFFFFFFFF 0xFFFFFFF000000000 0, one4, 0) := by decide
/-- FL18. -/
theorem test_fill_out_of_range : run pat one4 0x02010130 0 = some (pat, one4, 0x2C00) := by decide
/-- BW1. -/
theorem test_ior_b : run (Value.tuple 0 0 0 0xF0) (Value.tuple 0 0 0 0x3C) 0x00000040 0
    = some (Value.tuple 0 0 0 0xFC, Value.tuple 0 0 0 0x3C, 0) := by decide
/-- BW2. -/
theorem test_and_b : run (Value.tuple 0 0 0 0xF0) (Value.tuple 0 0 0 0x3C) 0x00000041 0
    = some (Value.tuple 0 0 0 0x30, Value.tuple 0 0 0 0x3C, 0) := by decide
/-- BW11. -/
theorem test_and_v : run pat Value.zero 0x00000141 0 = some (pat, Value.zero, 0) := by decide
/-- BW6. -/
theorem test_xor_b : run pat ones 0x00000042 0
    = some (Value.tuple 0xFEDCBA9876543210 0x0123456789ABCDEF 0xF0F0F0F0F0F0F0F0 0x7FFFFFFFFFFFFFFE, ones, 0) := by decide
/-- BW13. -/
theorem test_xor_v : run pat ones 0x00000142 0 = some (Value.zero, ones, 0) := by decide
/-- HC13: an illegal opcode keeps RES and LOSS. -/
theorem test_illegal_opcode : after pat one4 5 true 0 false 0x00000007 0 = some (pat, one4, 0x2605) := by decide
/-- HC21: a reserved bit beats a bad fill range. -/
theorem test_reserved_before_range : run pat one4 0x04002030 0 = some (pat, one4, 0x2800) := by decide

/-- R240: reset discards the presented command (here an illegal one) and leaves no record of it. -/
theorem test_reset_edge :
    (match step { State.reset with v := ones, b := pat, res := 9, pins := ⟨true, true, 0x07, 0⟩ } with
     | .next t => some (t.v, t.b, t.statusWord, t.rspValid)
     | _ => none) = some (Value.zero, Value.zero, 0, false) := by decide
/-- R62: an edge with no command changes nothing and answers nothing. -/
theorem test_idle_edge :
    (match step { State.reset with v := ones, b := pat, res := 9, rspValid := true } with
     | .next t => some (t.v, t.b, t.statusWord, t.rspValid)
     | _ => none) = some (ones, pat, 9, false) := by decide
/-- The next step of `withFetchWord` runs the word, and the host's schedule follows it. -/
theorem test_with_fetch_word :
    (match step (State.reset.withFetchWord 32 0x02000030) with
     | .next t => some (t.v, t.rspValid, t.pins)
     | _ => none) = some (ones, true, Pins.idle) := by decide
/-- U9: an ECODE of 4 is refused as a launch state. -/
theorem test_launch_refuses_ecode_4 :
    (match State.launch { State.reset with ecode := 4 } with
     | .refused .launchEcode => true
     | _ => false) = true := by decide

/-! ### The assembler (R76 to R78) -/

theorem test_assemble_comment_and_hex :
    assembleText "fill 0x80, 129 ; the bit 128" = some [{ cmd := 0x01028030, din := 0 }] := by decide
theorem test_assemble_word : assembleText ".word 0x00FF0110" = some [{ cmd := 0x00FF0110, din := 0 }] := by decide
theorem test_assemble_refuses_limb_4 : assembleText "rdv 4" = none := by decide
theorem test_assemble_refuses_upper_case : assembleText "NOP" = none := by decide
theorem test_assemble_refuses_missing_comma : assembleText "fill 1 2" = none := by decide
theorem test_assemble_movvb :
    assembleText "movvb" = some [{ cmd := 0x00000142, din := 0 }, { cmd := 0x00000040, din := 0 }] := by decide

/-! ### The hypotheses of the statements can be met -/

/-- The reset state with the word presented. -/
abbrev presented (w : CommandWord) : State := State.reset.presentWord w

theorem witness_AcceptedWordIsItsEncoding : decode 0x02000030 = .ok (.fill 0 256) := by rfl

theorem witness_DecoderAcceptsExactlyTheTable :
    decode 0x0000FF20 = .ok (.get 255) ∧ ⟨"GET", 0xFFFF00FF#32, 0x00000020#32⟩ ∈ opcodeTable ∧
      TableRow.accepts ⟨"GET", 0xFFFF00FF#32, 0x00000020#32⟩ 0x0000FF20 = true := ⟨rfl, by decide, by decide⟩

/-- The first and the last byte of the first and last illegal range, and the legal bytes next to them. -/
theorem witness_IllegalOpcodesAreRejected :
    illegalByte 0x07 = true ∧ illegalByte 0x0F = true ∧ illegalByte 0x43 = true ∧ illegalByte 0xFF = true ∧
      illegalByte 0x06 = false ∧ illegalByte 0x10 = false ∧ illegalByte 0x42 = false ∧
      (presented 0xABCDEF43).accepting = true ∧ illegalByte ((presented 0xABCDEF43).pins.cmd.toNat % 256) = true := by
  decide

/-- The lowest and the highest reserved bit of a format, and a row met by an accepted word. -/
theorem witness_ReservedBitsAreRejected :
    (∃ r ∈ opcodeTable, (presented 0x00010020).accepting = true ∧ opcField (presented 0x00010020).pins.cmd = r.opc ∧
      (presented 0x00010020).pins.cmd &&& r.reserved ≠ 0 ∧ (presented 0x80000020).accepting = true ∧
      opcField (presented 0x80000020).pins.cmd = r.opc ∧ (presented 0x80000020).pins.cmd &&& r.reserved ≠ 0) ∧
    (∃ r ∈ opcodeTable, decode 0x00000120 = .ok (.get 1) ∧ r.opc = opcField 0x00000120) :=
  ⟨⟨⟨"GET", 0xFFFF00FF#32, 0x00000020#32⟩, by decide⟩, ⟨⟨"GET", 0xFFFF00FF#32, 0x00000020#32⟩, by decide⟩⟩

theorem witness_StepRunsDecodedInstruction :
    (presented 0x00000021).accepting = true ∧ decode (presented 0x00000021).pins.cmd = .ok .popcnt ∧
      ∃ t, exec .popcnt (presented 0x00000021) = .next t := ⟨rfl, rfl, _, rfl⟩

/-- One word for each reason of rejection. -/
theorem witness_RejectionWritesErrorFieldsOnly :
    (presented 0x00000077).accepting = true ∧ errorOf (presented 0x00000077).pins.cmd = some .illegalOpcode ∧
    (presented 0x00000100).accepting = true ∧ errorOf (presented 0x00000100).pins.cmd = some .reservedField ∧
    (presented 0x02020030).accepting = true ∧ errorOf (presented 0x02020030).pins.cmd = some .fillRange := by decide

/-- A word for each clause: an unlisted opcode, a reserved bit, FILL just outside and just inside its domain, RDST. -/
theorem witness_EcodeFollowsCheckOrder :
    (presented 0x00000007).accepting = true ∧ (∀ r ∈ opcodeTable, r.opc ≠ opcField (presented 0x00000007).pins.cmd) ∧
    (∃ r ∈ opcodeTable, r.opc = opcField (presented 0x04002030).pins.cmd ∧
      (presented 0x04002030).pins.cmd &&& r.reserved ≠ 0) ∧
    (∃ r ∈ opcodeTable, r.opc = opcField (presented 0x02020030).pins.cmd ∧
      (presented 0x02020030).pins.cmd &&& r.reserved = 0 ∧ r.opc = 0x30 ∧
      ¬ endField (presented 0x02020030).pins.cmd ≤ 256) ∧
    (∃ r ∈ opcodeTable, r.opc = opcField (presented 0x02010030).pins.cmd ∧
      (presented 0x02010030).pins.cmd &&& r.reserved = 0 ∧ r.opc = 0x30 ∧
      startField (presented 0x02010030).pins.cmd ≤ endField (presented 0x02010030).pins.cmd ∧
      endField (presented 0x02010030).pins.cmd ≤ 256) ∧
    (∃ r ∈ opcodeTable, r.opc = opcField (presented 0x00000005).pins.cmd ∧
      (presented 0x00000005).pins.cmd &&& r.reserved = 0 ∧ r.opc = 0x05) :=
  ⟨rfl, by decide, ⟨⟨"FILL", 0xFC0000FF#32, 0x00000030#32⟩, by decide⟩, ⟨⟨"FILL", 0xFC0000FF#32, 0x00000030#32⟩, by decide⟩,
    ⟨⟨"FILL", 0xFC0000FF#32, 0x00000030#32⟩, by decide⟩, ⟨⟨"RDST", 0xFFFFFFFF#32, 0x00000005#32⟩, by decide⟩⟩

/-- A state in reset with a command presented, and other levels that are in reset too; also for
ResetLeavesEveryFieldZero. -/
theorem witness_ResetWinsOverCommand :
    State.pins { State.reset with v := ones, pins := ⟨true, true, 0x01, 7⟩ } = ⟨true, true, 0x01, 7⟩ ∧
      (⟨true, true, 0x01, 7⟩ : Pins).rst = true ∧ (⟨true, false, 0, 0⟩ : Pins).rst = true := ⟨rfl, rfl, rfl⟩

/-- A state with an idle port: the hypotheses of the last clause. -/
theorem witness_ResponseValidOnlyAfterAcceptance :
    State.reset.pins.rst = false ∧ State.reset.pins.cmdValid = false := ⟨rfl, rfl⟩

/-- The invariant at its bounds (RES 256, ECODE 3 with STICKY), and a step from there; also for
StickyRecordsEveryRejection. -/
theorem witness_StepKeepsStatusInvariant :
    State.Inv { presented 0x00000000 with res := 256, ecode := 3, sticky := true } ∧
      ∃ t, step { presented 0x00000000 with res := 256, ecode := 3, sticky := true } = .next t :=
  ⟨⟨⟨by decide, by decide⟩, fun _ => rfl⟩, _, rfl⟩

/-- A command that the decoder rejects; also for ResIsTheLastQuerys. -/
theorem witness_LossIsTheLastShifts :
    (presented 0x00000110).accepting = true ∧ decode (presented 0x00000110).pins.cmd = .error .reservedField :=
  ⟨rfl, rfl⟩

/-- An accepted command for each case of the response; also for AcceptedCommandIsTheCommandStep. -/
theorem witness_ResponseIsLimbOrStatus :
    (presented 0x00000302).accepting = true ∧ decode (presented 0x00000302).pins.cmd = .ok (.rdv 3) ∧
    (presented 0x00000304).accepting = true ∧ decode (presented 0x00000304).pins.cmd = .ok (.rdb 3) ∧
    (presented 0x00000022).accepting = true ∧ decode (presented 0x00000022).pins.cmd = .ok .highbit :=
  ⟨rfl, rfl, rfl, rfl, rfl, rfl⟩

theorem witness_DinIsIgnoredByOthers :
    opcField (presented 0x00000302).pins.cmd ≠ 0x01 ∧ opcField (presented 0x00000302).pins.cmd ≠ 0x03 ∧
      (∃ t, step (presented 0x00000101) = .next t) ∧
      ∃ u, step { presented 0x00000101 with pins := { (presented 0x00000101).pins with din := 7 } } = .next u :=
  ⟨by decide, by decide, ⟨_, rfl⟩, ⟨_, rfl⟩⟩

/-- Two different states that agree on V, B and din, and an instruction for each clause. -/
theorem witness_NoCommandReadsAFlag :
    State.reset ≠ { State.reset with loss := true, ecode := 2, sticky := true } ∧
      Instr.isShift (.lshift 3) = true ∧ Instr.isQuery .popcnt = true ∧ Instr.readsLimb (.rdv 1) = true ∧
      Instr.nop ≠ .rdst := by decide

theorem witness_OnlyTheNamedCommandsWriteVAndB : Instr.writesV (.wrb 0) = false ∧ Instr.writesB (.wrv 0) = false := by
  decide

/-- The range of a limb index and of a bus bit at its bounds; also for WriteLimbResult. -/
theorem witness_BusBitsAreLimbBits : (3 : LimbIndex).toNat = 3 ∧ 63 < 64 ∧ 64 * (3 : LimbIndex).toNat + 63 = 255 := by
  decide

/-- Each shift and each query, for the clauses of R244's list. -/
theorem witness_NextCommandSeesEveryEffect :
    Instr.isShift (.lshift 255) = true ∧ Instr.isShift (.rshift 0) = true ∧ Instr.isShift (.shift (-1)) = true ∧
      Instr.isQuery .popcnt = true ∧ Instr.isQuery .highbit = true ∧ Instr.isQuery (.get 0) = true := by decide

/-- The bounds of a distance, for every statement over d ≤ 255, with both outcomes of both flags there. -/
theorem witness_ShiftDistances :
    (255 : Nat) ≤ 255 ∧ lossLeft ones 255 = true ∧ lossLeft one4 0 = false ∧ lossRight ones 255 = true ∧
      lossRight one4 0 = false ∧ lossLeft (Value.tuple 0 0 0 1) 255 = false := by decide

/-- SHIFT: a distance of each sign, the most negative among them. -/
theorem witness_ShiftResult :
    (0 : Distance).toInt = 0 ∧ (32767 : Distance).toInt = (32767 : Nat) ∧ (0x8000 : Distance).toInt = -(32768 : Nat) := by
  decide

theorem witness_ShiftsArePeriodicAndKeepZero :
    (65279 : Distance).toNat ≤ 65535 - 256 ∧ State.reset.v = Value.zero ∧ Value.bit ones 255 = true ∧
      Value.bit ones 0 = true := by decide

theorem witness_ShiftsCompose : (100 : Nat) + 155 ≤ 255 ∧ (0 : Nat) + 0 ≤ 255 := by decide

theorem witness_QueryLaws : Instr.isQuery .highbit = true ∧ Instr.isQuery (.get 255) = true := by decide

/-- The bounds of the legal domain: the empty range at the top, and the whole value; also for FillResult. -/
theorem witness_FillMaskDefinitionsAgree :
    fillOk 256 256 = true ∧ fillOk 0 256 = true ∧ fillOk 0 0 = true ∧ fillOk 257 256 = false ∧ fillOk 0 257 = false ∧
      (0 : Bound).toNat ≤ (256 : Bound).toNat ∧ (256 : Bound).toNat ≤ 256 := by decide

/-- One pair of bounds for each reason. -/
theorem witness_FillOutOfRangeIsRejected :
    (0 : Bound).toNat < (1 : Bound).toNat ∧ 256 < (257 : Bound).toNat ∧ 256 < (511 : Bound).toNat := by decide

theorem witness_FillLaws :
    State.reset.v = Value.zero ∧ fillOk (0 : Bound).toNat (256 : Bound).toNat = true ∧
      (0 : Bound).toNat < (256 : Bound).toNat ∧ (100 : Bound).toNat ≤ (256 : Bound).toNat := by decide

/-- Two states that agree on limb 3 of V and B and differ elsewhere. -/
theorem witness_BitwiseLaws :
    State.reset ≠ { State.reset with v := Value.tuple 0 1 2 3 } ∧
      State.reset.v.limbAt 3 = (Value.tuple 0 1 2 3).limbAt 3 ∧ Instr.ior .v ∈ [Instr.ior .v, Instr.and .v] := by decide

/-- A state with RES and ECODE at the bounds of what is legal, and just above them. -/
theorem witness_LaunchRefusesUnreachableStatus :
    State.LegalStatus { State.reset with res := 256, ecode := 3 } ∧ 4 ≤ (4 : EcodeField).toNat ∧
      257 ≤ (257 : ResField).toNat := ⟨⟨by decide, by decide⟩, by decide, by decide⟩

end Sys2Proof.Tests
end

/-! The bits of a value and the bits of its number (R7, R8): everything later is read off bit by bit. -/

namespace Sys2Proof

variable (x : Value)

/-! ### Bits and limbs -/

theorem Value.limbAt_of_ge {j : Nat} (hj : 4 ≤ j) : x.limbAt j = 0 := by
  obtain ⟨k, rfl⟩ := Nat.exists_eq_add_of_le' hj
  rfl

theorem Value.bit_of_ge {i : Nat} (hi : 256 ≤ i) : x.bit i = false := by
  rw [Value.bit, x.limbAt_of_ge (by omega)]
  exact BitVec.getLsbD_zero

/-- Bit b of limb j is the absolute bit 64 j + b (R7). -/
theorem Value.bit_eq_limb {i j b : Nat} (hb : b < 64) (hi : i = 64 * j + b) :
    x.bit i = (x.limbAt j).getLsbD b := by
  rw [Value.bit, show i / 64 = j by omega, show i % 64 = b by omega]

theorem Value.bit_ofLimbs (f : Nat → Limb) {i : Nat} (hi : i < 256) :
    (Value.ofLimbs f).bit i = (f (i / 64)).getLsbD (i % 64) := by
  rw [Value.bit, Value.limbAt_ofLimbs f (by omega)]

theorem limb_ne_zero_iff (l : Limb) : l ≠ 0 ↔ ∃ b < 64, l.getLsbD b = true := by
  rw [Ne, BitVec.eq_of_getLsbD_eq_iff]
  simp

namespace Machine

/-! ### The number of a value -/

/-- Two words joined stand for the sum of the upper one, moved up, and the lower one. -/
theorem toNat_append_eq_add {m n : Nat} (a : BitVec m) (b : BitVec n) :
    (a ++ b).toNat = a.toNat * 2 ^ n + b.toNat := by
  rw [BitVec.toNat_append, ← Nat.shiftLeft_add_eq_or_of_lt b.isLt, Nat.shiftLeft_eq]

/-- The number of a value is its limbs joined, high to low (R8, R11). -/
theorem wordOf_eq_append : wordOf x = x.l3 ++ (x.l2 ++ (x.l1 ++ x.l0)) := by
  apply BitVec.eq_of_toNat_eq
  rw [wordOf, BitVec.toNat_ofNat, Nat.mod_eq_of_lt x.val_lt, Value.val, toNat_append_eq_add, toNat_append_eq_add,
    toNat_append_eq_add]
  omega

/-- Bit i of the number is bit i of the value (R7, R8). -/
@[simp] theorem getLsbD_wordOf (i : Nat) : (wordOf x).getLsbD i = x.bit i := by
  rw [wordOf_eq_append]
  simp only [BitVec.getLsbD_append]
  split_ifs with h2 h1 h0
  · exact (x.bit_eq_limb (j := 0) h0 (by omega)).symm
  · exact (x.bit_eq_limb (j := 1) (by omega) (by omega)).symm
  · exact (x.bit_eq_limb (j := 2) (by omega) (by omega)).symm
  · by_cases hi : i < 256
    · exact (x.bit_eq_limb (j := 3) (by omega) (by omega)).symm
    · rw [x.bit_of_ge (by omega), BitVec.getLsbD_of_ge _ _ (by omega)]

theorem testBit_wordOf (i : Nat) : (wordOf x).toNat.testBit i = x.bit i := by
  rw [BitVec.testBit_toNat, getLsbD_wordOf]

/-- A word is the number of a value as soon as the two have the same 256 bits. -/
theorem wordOf_eq_of_bits {w : BitVec 256} (h : ∀ i < 256, x.bit i = w.getLsbD i) : wordOf x = w :=
  BitVec.eq_of_getLsbD_eq fun i hi => by rw [getLsbD_wordOf, h i hi]

/-- The number is below 2^n where no bit from n on is set. -/
theorem wordOf_lt_two_pow_iff (n : Nat) : (wordOf x).toNat < 2 ^ n ↔ ∀ i, n ≤ i → x.bit i = false := by
  simp only [← testBit_wordOf]
  exact ⟨fun h i hi => Nat.testBit_lt_two_pow (h.trans_le (Nat.pow_le_pow_right (by decide) hi)),
    fun h => Nat.lt_pow_two_of_testBit _ h⟩

/-- The number is a multiple of 2^n where no bit below n is set. -/
theorem wordOf_mod_two_pow_eq_zero_iff (n : Nat) : (wordOf x).toNat % 2 ^ n = 0 ↔ ∀ i < n, x.bit i = false := by
  have hbit (i : Nat) : ((wordOf x).toNat % 2 ^ n).testBit i = (decide (i < n) && x.bit i) := by
    rw [Nat.testBit_mod_two_pow, testBit_wordOf]
  constructor
  · intro h i hi
    simpa [h, hi] using (hbit i).symm
  · intro h
    refine Nat.zero_of_testBit_eq_false fun i => ?_
    rw [hbit, Bool.and_eq_false_imp]
    exact fun hi => h i (of_decide_eq_true hi)

end Machine

end Sys2Proof

/-! The limb-wise shifts and their loss flags, bit by bit and then on 256-bit numbers (R121 to R124). -/

namespace Sys2Proof.Machine

variable (x : Value) (d : Nat)

/-- LSH moves bit i - d to bit i and fills with 0 (R121). -/
theorem bit_lsh {i : Nat} (hi : i < 256) : (lsh x d).bit i = (decide (d ≤ i) && x.bit (i - d)) := by
  rw [lsh, Value.bit_ofLimbs _ hi, BitVec.getLsbD_or]
  by_cases hs : d % 64 ≤ i % 64
  · -- the bit stays in the limb that moves to limb `i / 64`
    have hcarry : (if d % 64 ≠ 0 ∧ d / 64 + 1 ≤ i / 64 then
        x.limbAt (i / 64 - d / 64 - 1) >>> (64 - d % 64) else 0).getLsbD (i % 64) = false := by
      split_ifs
      · rw [BitVec.getLsbD_ushiftRight, BitVec.getLsbD_of_ge _ _ (by omega)]
      · exact BitVec.getLsbD_zero
    rw [hcarry, Bool.or_false]
    by_cases hk : d / 64 ≤ i / 64
    · rw [if_pos hk, BitVec.getLsbD_shiftLeft, ← x.bit_eq_limb (i := i - d) (by omega) (by omega)]
      simp [show d ≤ i by omega, show i % 64 < 64 by omega, show ¬i % 64 < d % 64 by omega]
    · simp [hk, show ¬d ≤ i by omega]
  · -- the bit comes from the top of the limb below it
    have hmove : (if d / 64 ≤ i / 64 then x.limbAt (i / 64 - d / 64) <<< (d % 64) else 0).getLsbD (i % 64)
        = false := by
      split_ifs
      · simp [show i % 64 < d % 64 by omega]
      · exact BitVec.getLsbD_zero
    rw [hmove, Bool.false_or]
    by_cases hk : d / 64 + 1 ≤ i / 64
    · rw [if_pos ⟨by omega, hk⟩, BitVec.getLsbD_ushiftRight,
        ← x.bit_eq_limb (i := i - d) (j := i / 64 - d / 64 - 1) (by omega) (by omega)]
      simp [show d ≤ i by omega]
    · simp [hk, show ¬d ≤ i by omega]

/-- RSH moves bit i + d to bit i and fills with 0 (R123). -/
theorem bit_rsh {i : Nat} (hi : i < 256) : (rsh x d).bit i = x.bit (i + d) := by
  rw [rsh, Value.bit_ofLimbs _ hi, BitVec.getLsbD_or]
  by_cases hs : i % 64 + d % 64 < 64
  · -- the bit stays in the limb that moves to limb `i / 64`
    have hcarry : (if d % 64 ≠ 0 ∧ i / 64 + d / 64 + 1 ≤ 3 then
        x.limbAt (i / 64 + d / 64 + 1) <<< (64 - d % 64) else 0).getLsbD (i % 64) = false := by
      split_ifs
      · simp [show i % 64 < 64 - d % 64 by omega]
      · exact BitVec.getLsbD_zero
    rw [hcarry, Bool.or_false]
    by_cases hk : i / 64 + d / 64 ≤ 3
    · rw [if_pos hk, BitVec.getLsbD_ushiftRight, ← x.bit_eq_limb (i := i + d) (by omega) (by omega)]
    · rw [if_neg hk, x.bit_of_ge (by omega)]
      exact BitVec.getLsbD_zero
  · -- the bit comes from the bottom of the limb above it
    have hmove : (if i / 64 + d / 64 ≤ 3 then x.limbAt (i / 64 + d / 64) >>> (d % 64) else 0).getLsbD (i % 64)
        = false := by
      split_ifs
      · rw [BitVec.getLsbD_ushiftRight, BitVec.getLsbD_of_ge _ _ (by omega)]
      · exact BitVec.getLsbD_zero
    rw [hmove, Bool.false_or]
    by_cases hk : i / 64 + d / 64 + 1 ≤ 3
    · rw [if_pos ⟨by omega, hk⟩, BitVec.getLsbD_shiftLeft, ← x.bit_eq_limb (i := i + d) (by omega) (by omega)]
      simp [show i % 64 < 64 by omega, show ¬i % 64 < 64 - d % 64 by omega]
    · rw [if_neg (fun h => hk h.2), x.bit_of_ge (by omega)]
      exact BitVec.getLsbD_zero

/-- LSH is the product with 2^d modulo 2^256 (R121). -/
theorem wordOf_lsh : wordOf (lsh x d) = BitVec.ofNat 256 ((wordOf x).toNat * 2 ^ d) := by
  apply wordOf_eq_of_bits
  intro i hi
  rw [bit_lsh x d hi, BitVec.getLsbD_ofNat, ← Nat.shiftLeft_eq, Nat.testBit_shiftLeft, testBit_wordOf]
  simp [hi]

/-- RSH is the quotient by 2^d (R123). -/
theorem wordOf_rsh : wordOf (rsh x d) = BitVec.ofNat 256 ((wordOf x).toNat / 2 ^ d) := by
  apply wordOf_eq_of_bits
  intro i hi
  rw [bit_rsh x d hi, BitVec.getLsbD_ofNat, ← Nat.shiftRight_eq_div_pow, Nat.testBit_shiftRight, testBit_wordOf,
    Nat.add_comm]
  simp [hi]

/-- One of the limbs that `p` picks is not 0 where one of their bits is 1. -/
theorem any_limb_ne_zero_iff (p : Nat → Bool) :
    ((List.range 4).any fun m => p m && x.limbAt m != 0) = true ↔ ∃ i, p (i / 64) = true ∧ x.bit i = true := by
  simp only [List.any_eq_true, List.mem_range, Bool.and_eq_true, bne_iff_ne, limb_ne_zero_iff]
  constructor
  · rintro ⟨m, -, hp, b, hb, hbit⟩
    exact ⟨64 * m + b, by rwa [show (64 * m + b) / 64 = m by omega], by rwa [x.bit_eq_limb hb rfl]⟩
  · rintro ⟨i, hp, hbit⟩
    have hi : i < 256 := by
      by_contra hge
      simp [x.bit_of_ge (not_lt.mp hge)] at hbit
    exact ⟨i / 64, by omega, hp, i % 64, by omega, hbit⟩

/-- LOSSL: one of the d top bits is 1 (R122). -/
theorem lossLeft_iff (hd : d ≤ 255) : lossLeft x d = true ↔ ∃ i, 256 - d ≤ i ∧ x.bit i = true := by
  have hpart : (d % 64 != 0 && x.limbAt (3 - d / 64) >>> (64 - d % 64) != 0) = true ↔
      ∃ i, 256 - d ≤ i ∧ i / 64 = 3 - d / 64 ∧ x.bit i = true := by
    simp only [Bool.and_eq_true, bne_iff_ne, limb_ne_zero_iff, BitVec.getLsbD_ushiftRight]
    constructor
    · rintro ⟨-, b, -, hbit⟩
      have hlt : 64 - d % 64 + b < 64 := by
        by_contra hge
        simp [BitVec.getLsbD_of_ge _ _ (not_lt.mp hge)] at hbit
      exact ⟨64 * (3 - d / 64) + (64 - d % 64 + b), by omega, by omega, by rwa [x.bit_eq_limb hlt rfl]⟩
    · rintro ⟨i, hi, hj, hbit⟩
      refine ⟨by omega, i % 64 - (64 - d % 64), by omega, ?_⟩
      rwa [← x.bit_eq_limb (i := i) (by omega) (by omega)]
  rw [lossLeft, Bool.or_eq_true, any_limb_ne_zero_iff x fun m => decide (4 - d / 64 ≤ m), hpart]
  constructor
  · rintro (⟨i, hk, hbit⟩ | ⟨i, hi, -, hbit⟩)
    · exact ⟨i, by have := of_decide_eq_true hk; omega, hbit⟩
    · exact ⟨i, hi, hbit⟩
  · rintro ⟨i, hi, hbit⟩
    by_cases hk : 4 - d / 64 ≤ i / 64
    · exact .inl ⟨i, decide_eq_true hk, hbit⟩
    · exact .inr ⟨i, hi, by omega, hbit⟩

/-- LOSSR: one of the d bottom bits is 1 (R124). -/
theorem lossRight_iff : lossRight x d = true ↔ ∃ i < d, x.bit i = true := by
  have hpart : (d % 64 != 0 && x.limbAt (d / 64) &&& BitVec.ofNat 64 (2 ^ (d % 64) - 1) != 0) = true ↔
      ∃ i < d, i / 64 = d / 64 ∧ x.bit i = true := by
    simp only [Bool.and_eq_true, bne_iff_ne, limb_ne_zero_iff, BitVec.getLsbD_and, BitVec.getLsbD_ofNat,
      Nat.testBit_two_pow_sub_one, decide_eq_true_eq]
    constructor
    · rintro ⟨-, b, hb, hbit, -, hlt⟩
      exact ⟨64 * (d / 64) + b, by omega, by omega, by rwa [x.bit_eq_limb hb rfl]⟩
    · rintro ⟨i, hi, hj, hbit⟩
      exact ⟨by omega, i % 64, by omega, by rwa [← x.bit_eq_limb (i := i) (by omega) (by omega)], by omega, by omega⟩
  rw [lossRight, Bool.or_eq_true, any_limb_ne_zero_iff x fun m => decide (m < d / 64), hpart]
  constructor
  · rintro (⟨i, hk, hbit⟩ | ⟨i, hi, -, hbit⟩)
    · exact ⟨i, by have := of_decide_eq_true hk; omega, hbit⟩
    · exact ⟨i, hi, hbit⟩
  · rintro ⟨i, hi, hbit⟩
    by_cases hk : i / 64 < d / 64
    · exact .inl ⟨i, decide_eq_true hk, hbit⟩
    · exact .inr ⟨i, hi, by omega, hbit⟩

/-- LOSSL is set where the product with 2^d does not fit (R122). -/
theorem lossLeft_eq (hd : d ≤ 255) : lossLeft x d = decide (2 ^ 256 ≤ (wordOf x).toNat * 2 ^ d) := by
  have hsplit : 2 ^ 256 = 2 ^ (256 - d) * 2 ^ d := by rw [← pow_add]; congr 1; omega
  rw [Bool.eq_iff_iff, lossLeft_iff x d hd, decide_eq_true_iff, hsplit, Nat.mul_le_mul_right_iff (by positivity),
    ← not_lt, wordOf_lt_two_pow_iff]
  simp

/-- LOSSR is set where the remainder by 2^d is not 0 (R124). -/
theorem lossRight_eq : lossRight x d = decide ((wordOf x).toNat % 2 ^ d ≠ 0) := by
  rw [Bool.eq_iff_iff, lossRight_iff, decide_eq_true_iff, Ne, wordOf_mod_two_pow_eq_zero_iff]
  simp

end Sys2Proof.Machine

/-! The other limb-wise operations on 256-bit numbers: limb access, the queries, the fill mask and the lane-wise
combinators (R43, R151 to R153, R170, R181 to R183). -/

namespace Sys2Proof.Machine

variable (x y : Value)

/-! ### Limb access -/

/-- Reading limb j is the digit j of the number in base 2^64 (R8). -/
theorem limbOperand_toNat (limb : LimbIndex) :
    (limbOperand x limb).toNat = (wordOf x).toNat / 2 ^ (64 * limb.toNat) % 2 ^ 64 := by
  have hlimb : limbOperand x limb = (wordOf x).extractLsb' (64 * limb.toNat) 64 := by
    apply BitVec.eq_of_getLsbD_eq
    intro b hb
    rw [limbOperand, BitVec.getLsbD_extractLsb', getLsbD_wordOf, x.bit_eq_limb hb rfl]
    simp [hb]
  rw [hlimb, BitVec.extractLsb'_toNat, Nat.shiftRight_eq_div_pow]

/-- The 64 bits of limb j are those of d, every other bit stays (R43). -/
theorem getLsbD_numSetLimb (w : BitVec 256) (j : Nat) (d : Limb) {i : Nat} (hi : i < 256) :
    (numSetLimb w j d).getLsbD i = if i / 64 = j then d.getLsbD (i % 64) else w.getLsbD i := by
  simp only [numSetLimb, BitVec.getLsbD_or, BitVec.getLsbD_and, BitVec.getLsbD_not, BitVec.getLsbD_shiftLeft,
    BitVec.getLsbD_setWidth, BitVec.getLsbD_allOnes]
  split_ifs with hj
  · simp [hi, show ¬i < 64 * j by omega, show i - 64 * j = i % 64 by omega, show i % 64 < 256 by omega,
      show i % 64 < 64 by omega]
  · by_cases hlo : i < 64 * j
    · simp [hi, hlo]
    · simp [hi, hlo, show ¬i - 64 * j < 64 by omega, d.getLsbD_of_ge (i - 64 * j) (by omega)]

/-- Writing a limb replaces its 64 bits of the number (R43). -/
theorem wordOf_writeLimb (limb : LimbIndex) (d : Limb) :
    wordOf (writeLimb x limb d) = numSetLimb (wordOf x) limb.toNat d := by
  apply wordOf_eq_of_bits
  intro i hi
  rw [getLsbD_numSetLimb _ _ _ hi, getLsbD_wordOf, Value.bit, limbAt_writeLimb]
  split_ifs <;> rfl

/-! ### The queries -/

/-- The count of a word is the sum of the counts of its two parts. -/
theorem popcountBits_append {m n : Nat} (a : BitVec m) (b : BitVec n) :
    popcountBits (a ++ b) = popcountBits a + popcountBits b := by
  have hrange : List.range (m + n) = List.range n ++ (List.range m).map (n + ·) := by
    rw [Nat.add_comm, List.range_add]
  rw [popcountBits, hrange, List.countP_append, List.countP_map, Nat.add_comm]
  congr 1
  · refine List.countP_congr fun i _ => ?_
    simp [BitVec.getLsbD_append]
  · refine List.countP_congr fun i hi => ?_
    simp [BitVec.getLsbD_append, List.mem_range.mp hi]

theorem popcountBits_le {n : Nat} (a : BitVec n) : popcountBits a ≤ n :=
  List.countP_le_length.trans_eq List.length_range

theorem numPopcount_le (w : BitVec 256) : numPopcount w ≤ 256 := popcountBits_le w

/-- The sum of the four limbs' counts is the count of the number (R152). -/
theorem popcount_eq : popcount x = numPopcount (wordOf x) := by
  rw [numPopcount, wordOf_eq_append]
  refine Eq.trans ?_ (popcountBits_append x.l3 (x.l2 ++ (x.l1 ++ x.l0))).symm
  rw [popcountBits_append, popcountBits_append, popcount]
  omega

theorem topBitBelow_none {l : Limb} {n : Nat} (h : topBitBelow l n = none) : ∀ b < n, l.getLsbD b = false := by
  induction n with
  | zero => simp
  | succ n ih =>
    rw [topBitBelow] at h
    split_ifs at h with hn
    intro b hb
    rcases Nat.lt_succ_iff_lt_or_eq.mp hb with hlt | rfl
    · exact ih h b hlt
    · simpa using hn

theorem topBitBelow_some {l : Limb} {n p : Nat} (h : topBitBelow l n = some p) :
    p < n ∧ l.getLsbD p = true ∧ ∀ b, p < b → b < n → l.getLsbD b = false := by
  induction n with
  | zero => simp [topBitBelow] at h
  | succ n ih =>
    rw [topBitBelow] at h
    split_ifs at h with hn
    · obtain rfl := Option.some.inj h
      exact ⟨n.lt_succ_self, hn, fun b hlo hhi => by omega⟩
    · obtain ⟨hp, hset, hclear⟩ := ih h
      refine ⟨by omega, hset, fun b hlo hhi => ?_⟩
      rcases Nat.lt_succ_iff_lt_or_eq.mp hhi with hlt | rfl
      · exact hclear b hlo hlt
      · simpa using hn

/-- The scan of R153 over m limbs answers the least bound above every set bit of these limbs. -/
theorem bitLengthBelow_le_iff (m n : Nat) :
    bitLengthBelow x m ≤ n ↔ ∀ i, n ≤ i → i < 64 * m → x.bit i = false := by
  induction m with
  | zero => simp [bitLengthBelow]
  | succ m ih =>
    rw [bitLengthBelow]
    cases htop : topBitBelow (x.limbAt m) 64 with
    | none =>
      have hzero (i : Nat) (hlo : 64 * m ≤ i) (hhi : i < 64 * (m + 1)) : x.bit i = false := by
        rw [x.bit_eq_limb (j := m) (b := i - 64 * m) (by omega) (by omega)]
        exact topBitBelow_none htop _ (by omega)
      refine ih.trans ⟨fun h i hn hi => ?_, fun h i hn hi => h i hn (by omega)⟩
      by_cases hm : i < 64 * m
      · exact h i hn hm
      · exact hzero i (by omega) hi
    | some p =>
      obtain ⟨hp, hset, hclear⟩ := topBitBelow_some htop
      change 64 * m + p + 1 ≤ n ↔ _
      constructor
      · intro hle i hn hi
        rw [x.bit_eq_limb (j := m) (b := i - 64 * m) (by omega) (by omega)]
        exact hclear _ (by omega) (by omega)
      · intro h
        by_contra hlt
        have hfalse := h (64 * m + p) (by omega) (by omega)
        rw [x.bit_eq_limb hp rfl, hset] at hfalse
        contradiction

/-- `numBitLength` is the least n with x < 2^n (R153). -/
theorem numBitLength_le_iff (w : BitVec 256) (n : Nat) : numBitLength w ≤ n ↔ w.toNat < 2 ^ n := by
  rw [numBitLength]
  split_ifs with h
  · simp [h]
  · rw [Nat.add_one_le_iff, Nat.log2_lt fun h0 => h (BitVec.eq_of_toNat_eq h0)]

/-- The scan over the limbs answers the bit length of the number (R153). -/
theorem bitLength_eq : bitLength x = numBitLength (wordOf x) := by
  refine eq_of_forall_ge_iff fun n => ?_
  rw [bitLength, bitLengthBelow_le_iff, numBitLength_le_iff, wordOf_lt_two_pow_iff]
  refine ⟨fun h i hn => ?_, fun h i hn _ => h i hn⟩
  by_cases hi : i < 256
  · exact h i hn hi
  · exact x.bit_of_ge (by omega)

theorem numBitLength_le (w : BitVec 256) : numBitLength w ≤ 256 := (numBitLength_le_iff w 256).mpr w.isLt

/-! ### Fill masks and combinators -/

/-- FILLMASK holds exactly the bits of the half-open range (R170). -/
theorem bit_fillMask (start stop : Nat) {i : Nat} (hi : i < 256) :
    (fillMask start stop).bit i = decide (start ≤ i ∧ i < stop) := by
  rw [fillMask, Value.bit_ofLimbs _ hi, fillMaskLimb]
  split_ifs with h
  · simp only [BitVec.getLsbD_shiftLeft, BitVec.getLsbD_ofNat, Nat.testBit_two_pow_sub_one]
    rw [Bool.eq_iff_iff]
    simp only [Bool.and_eq_true, Bool.not_eq_true', decide_eq_true_eq, decide_eq_false_iff_not]
    omega
  · refine BitVec.getLsbD_zero.trans (decide_eq_false ?_).symm
    omega

/-- FILLMASK is `pat(2^end - 2^start)` (R170). -/
theorem wordOf_fillMask {start stop : Nat} (h : start ≤ stop) :
    wordOf (fillMask start stop) = numFillMask start stop := by
  have hrun : 2 ^ stop - 2 ^ start = (2 ^ (stop - start) - 1) <<< start := by
    rw [Nat.shiftLeft_eq, Nat.sub_mul, one_mul, ← pow_add, Nat.sub_add_cancel h]
  apply wordOf_eq_of_bits
  intro i hi
  rw [bit_fillMask start stop hi, numFillMask, hrun, BitVec.getLsbD_ofNat, Nat.testBit_shiftLeft,
    Nat.testBit_two_pow_sub_one, Bool.eq_iff_iff]
  simp only [Bool.and_eq_true, decide_eq_true_eq]
  omega

/-- A lane-wise combination acts on each pair of bits where its lane function does (R184). -/
theorem bit_laneWise {f : Limb → Limb → Limb} {g : Bool → Bool → Bool}
    (hfg : ∀ a b : Limb, ∀ k < 64, (f a b).getLsbD k = g (a.getLsbD k) (b.getLsbD k)) {i : Nat} (hi : i < 256) :
    (laneWise f x y).bit i = g (x.bit i) (y.bit i) := by
  rw [laneWise, Value.bit_ofLimbs _ hi, hfg _ _ _ (by omega)]
  rfl

theorem wordOf_laneWise_or : wordOf (laneWise (fun a b => a ||| b) x y) = wordOf x ||| wordOf y :=
  wordOf_eq_of_bits _ fun i hi => by
    rw [bit_laneWise x y (g := or) (by simp) hi]
    simp

theorem wordOf_laneWise_and : wordOf (laneWise (fun a b => a &&& b) x y) = wordOf x &&& wordOf y :=
  wordOf_eq_of_bits _ fun i hi => by
    rw [bit_laneWise x y (g := and) (by simp) hi]
    simp

theorem wordOf_laneWise_xor : wordOf (laneWise (fun a b => a ^^^ b) x y) = wordOf x ^^^ wordOf y :=
  wordOf_eq_of_bits _ fun i hi => by
    rw [bit_laneWise x y (g := xor) (by simp) hi]
    simp

/-- `X | Y` limb by limb is the lane-wise combination by OR. -/
theorem orMask_eq_laneWise : orMask x y = laneWise (fun a b => a ||| b) x y := rfl

end Sys2Proof.Machine

/-! The simulation of the limb-wise machine by its numeric reading: one rule per named update of the state, one per end of
a command, and the case split over the commands. -/

namespace Sys2Proof.Machine

/-! ### The numeric reading of each update -/

section Updates

variable (s : State)

@[simp] theorem numeric_setV (x : Value) : (s.setV x).numeric = { s.numeric with v := wordOf x } := rfl
@[simp] theorem numeric_setB (x : Value) : (s.setB x).numeric = { s.numeric with b := wordOf x } := rfl
@[simp] theorem numeric_setRes (r : ResField) : (s.setRes r).numeric = { s.numeric with res := r.toNat } := rfl
@[simp] theorem numeric_setLoss (f : Bool) : (s.setLoss f).numeric = { s.numeric with loss := f } := rfl
@[simp] theorem numeric_setEcode (e : EcodeField) :
    (s.setEcode e).numeric = { s.numeric with ecode := e.toNat } := rfl
@[simp] theorem numeric_setSticky (f : Bool) : (s.setSticky f).numeric = { s.numeric with sticky := f } := rfl
@[simp] theorem numeric_respond (d : Limb) : (s.respond d).numeric = s.numeric := rfl
@[simp] theorem numeric_v : s.numeric.v = wordOf s.v := rfl
@[simp] theorem numeric_b : s.numeric.b = wordOf s.b := rfl

@[simp] theorem numeric_selected (op : OpSel) : s.numeric.selected op = wordOf (s.selected op) := by
  cases op <;> rfl

theorem numeric_shiftLeft {d : Nat} (hd : d ≤ 255) : (s.shiftLeft d).numeric = s.numeric.shiftLeft d := by
  rw [NumState.shiftLeft, numeric_v, ← wordOf_lsh, ← lossLeft_eq s.v d hd]
  rfl

theorem numeric_shiftRight (d : Nat) : (s.shiftRight d).numeric = s.numeric.shiftRight d := by
  rw [NumState.shiftRight, numeric_v, ← wordOf_rsh, ← lossRight_eq]
  rfl

/-- A left shift by 0 of the numbers only clears LOSS. -/
theorem NumState.shiftLeft_zero (n : NumState) : n.shiftLeft 0 = { n with loss := false } := by
  have hlt := n.v.isLt
  rw [NumState.shiftLeft, pow_zero, mul_one, BitVec.ofNat_toNat, BitVec.setWidth_eq, decide_eq_false (by omega)]

/-- A number of at most 256 fits the field RES (R27). -/
theorem resField_toNat {r : Nat} (h : r ≤ 256) : (BitVec.ofNat 9 r).toNat = r := by
  rw [BitVec.toNat_ofNat, Nat.mod_eq_of_lt (by omega)]

theorem resField_bit (x : Value) (i : Nat) :
    ((BitVec.ofBool (x.bit i)).zeroExtend 9).toNat = ((wordOf x).getLsbD i).toNat := by
  rw [getLsbD_wordOf]
  cases x.bit i <;> rfl

theorem resField_popcount (x : Value) : (BitVec.ofNat 9 (popcount x)).toNat = numPopcount (wordOf x) := by
  rw [popcount_eq, resField_toNat (numPopcount_le _)]

theorem resField_bitLength (x : Value) : (BitVec.ofNat 9 (bitLength x)).toNat = numBitLength (wordOf x) := by
  rw [bitLength_eq, resField_toNat (numBitLength_le _)]

/-- The STATUS word is the sum of its fields at their positions (R25). -/
theorem statusWord_toNat : s.statusWord.toNat = s.numeric.status := by
  have hres := s.res.isLt
  have hecode := s.ecode.isLt
  have hloss := Bool.toNat_lt s.loss
  have hsticky := Bool.toNat_lt s.sticky
  rw [State.statusWord, statusOf, BitVec.zeroExtend, BitVec.toNat_setWidth, toNat_append_eq_add, toNat_append_eq_add,
    toNat_append_eq_add, BitVec.toNat_ofBool, BitVec.toNat_ofBool]
  simp only [NumState.status, State.numeric]
  omega

end Updates

/-! ### The end of a command -/

/-- The outcome is a next state with a response, and its numeric reading and response are `r`. -/
def Answers (o : Host.Outcome State Fault Refusal) (r : NumState × Nat) : Prop :=
  ∃ t, o = .next t ∧ t.rspValid = true ∧ (t.numeric, t.dout.toNat) = r

theorem answers_respondStatus (s : State) : Answers (.next s.respondStatus) (s.numeric, s.numeric.status) :=
  ⟨_, rfl, rfl, by simp [State.respondStatus, statusWord_toNat]⟩

/-- An accepted command answers what the numeric reading's end of a command does, once the state before it reads as `n`. -/
theorem answers_accept {s : State} {n : NumState} (h : s.numeric = n) : Answers (.next s.accept) n.accepted := by
  subst h
  exact answers_respondStatus (s.setEcode 0)

theorem answers_reject (s : State) (e : ErrorCode) : Answers (.next (s.reject e)) (s.numeric.rejected e.code.toNat) :=
  answers_respondStatus ((s.setEcode e.code).setSticky true)

/-- An accepted read of a limb answers the limb as a number. -/
theorem answers_acceptRead (s : State) (x : Value) (limb : LimbIndex) :
    Answers (.next (s.acceptRead (limbOperand x limb)))
      ({ s.numeric with ecode := 0 }, (wordOf x).toNat / 2 ^ (64 * limb.toNat) % 2 ^ 64) :=
  ⟨_, rfl, rfl, by simp [State.acceptRead, limbOperand_toNat]⟩

/-! ### The commands with a case of their own -/

/-- SHIFT by its signed distance; the numeric reading has no case for 0, a left shift by 0 (R127). -/
theorem execShift_answers (dist : Distance) (s : State) :
    Answers (exec (.shift dist) s) (numExec (.shift dist) s.pins.din s.numeric) := by
  have hdist : signedDistance dist = dist.toInt := rfl
  rcases lt_trichotomy (signedDistance dist) 0 with h | h | h
  · rw [exec_shift_neg s h, numExec, if_neg (by omega), reduceDistance_eq]
    exact answers_accept (numeric_shiftRight s _)
  · rw [exec_shift_zero s h, numExec, if_pos (by omega), ← hdist, h]
    exact answers_accept (NumState.shiftLeft_zero s.numeric).symm
  · rw [exec_shift_pos s h, numExec, if_pos (by omega), ← reduceDistance_eq]
    exact answers_accept (numeric_shiftLeft s (reduceDistance_le _))

/-- FILL with legal bounds sets the bits of the mask, and is rejected otherwise (R171). -/
theorem execFill_answers (start stop : Bound) (s : State) :
    Answers (exec (.fill start stop) s) (numExec (.fill start stop) s.pins.din s.numeric) := by
  rw [numExec]
  split_ifs with h
  · rw [exec_fill_ok s (fillOk_iff.mpr h)]
    exact answers_accept (by simp [orMask_eq_laneWise, wordOf_laneWise_or, wordOf_fillMask h.1])
  · rw [exec_fill_rejected s (by rwa [← Bool.not_eq_true, fillOk_iff])]
    exact answers_reject s .fillRange

/-- Every command answers what the numeric reading of it does. -/
theorem exec_answers_numExec (i : Instr) (s : State) : Answers (exec i s) (numExec i s.pins.din s.numeric) := by
  cases i with
  | nop => exact answers_accept rfl
  | wrv limb => exact answers_accept (by simp [wordOf_writeLimb])
  | rdv limb => exact answers_acceptRead s s.v limb
  | wrb limb => exact answers_accept (by simp [wordOf_writeLimb])
  | rdb limb => exact answers_acceptRead s s.b limb
  | rdst => exact answers_respondStatus s
  | clrst => exact answers_accept rfl
  | lshift dist =>
    rw [exec_lshift, numExec, ← reduceDistance_eq]
    exact answers_accept (numeric_shiftLeft s (reduceDistance_le _))
  | rshift dist =>
    rw [exec_rshift, numExec, ← reduceDistance_eq]
    exact answers_accept (numeric_shiftRight s _)
  | shift dist => exact execShift_answers dist s
  | get idx => exact answers_accept (by rw [numeric_setRes, resField_bit]; rfl)
  | popcnt => exact answers_accept (by rw [numeric_setRes, resField_popcount]; rfl)
  | highbit => exact answers_accept (by rw [numeric_setRes, resField_bitLength]; rfl)
  | fill start stop => exact execFill_answers start stop s
  | ior op => exact answers_accept (by simp [wordOf_laneWise_or])
  | and op => exact answers_accept (by simp [wordOf_laneWise_and])
  | xor op => exact answers_accept (by simp [wordOf_laneWise_xor])

/-- Settles O56: each command's own rule, by cases over the commands. -/
theorem execRefinesNumericReading : Obligations.ExecRefinesNumericReading :=
  exec_answers_numExec

end Sys2Proof.Machine

/-! What a command leaves in each field of the state, read off its numeric reading (R20, R21, R26 to R29), and what holds
after every edge of the clock as soon as it holds after each kind of edge. -/

namespace Sys2Proof

/-- FILL is rejected for its bounds exactly where they are not legal (R170, R171). -/
theorem Instr.rejectedRange_fill (start stop : Bound) :
    (Instr.fill start stop).rejectedRange = !decide (start.toNat ≤ stop.toNat ∧ stop.toNat ≤ 256) := by
  simp [rejectedRange, Machine.fillOk]

/-- The codes of R201 end at 3. -/
theorem ErrorCode.code_toNat_le (e : ErrorCode) : e.code.toNat ≤ 3 := by
  cases e <;> decide

namespace Machine

/-! ### The numeric reading of a command, field by field -/

section Fields

variable (i : Instr) (d : Limb) (n : NumState)

@[simp] theorem NumState.accepted_fst : n.accepted.1 = { n with ecode := 0 } := rfl

@[simp] theorem NumState.rejected_fst (e : Nat) : (n.rejected e).1 = { n with ecode := e, sticky := true } := rfl

/-- The two outcomes of FILL (R171). -/
theorem numExec_fill (start stop : Bound) :
    numExec (.fill start stop) d n =
      if (Instr.fill start stop).rejectedRange = true then n.rejected 3
      else { n with v := n.v ||| numFillMask start.toNat stop.toNat }.accepted := by
  rw [numExec, Instr.rejectedRange_fill]
  by_cases h : start.toNat ≤ stop.toNat ∧ stop.toNat ≤ 256 <;> simp [h]

/-- Illegal FILL bounds write ECODE 3, RDST leaves ECODE as it is, every other command writes 0 (R28). -/
theorem numExec_ecode :
    (numExec i d n).1.ecode = if i.rejectedRange = true then 3 else if i = .rdst then n.ecode else 0 := by
  cases i with
  | shift dist => rw [numExec]; split_ifs <;> trivial
  | fill start stop => rw [numExec_fill]; split_ifs <;> trivial
  | _ => rfl

/-- Illegal FILL bounds set STICKY, CLRST clears it (R29). -/
theorem numExec_sticky :
    (numExec i d n).1.sticky = if i.rejectedRange = true then true else if i = .clrst then false else n.sticky := by
  cases i with
  | shift dist => rw [numExec]; split_ifs <;> trivial
  | fill start stop => rw [numExec_fill]; split_ifs <;> trivial
  | _ => rfl

/-- RES is written by the queries and CLRST only (R27). -/
theorem numExec_res_of_not_isQuery (hq : i.isQuery = false) (hc : i ≠ .clrst) : (numExec i d n).1.res = n.res := by
  cases i with
  | get | popcnt | highbit => contradiction
  | clrst => contradiction
  | shift dist => rw [numExec]; split_ifs <;> rfl
  | fill start stop => rw [numExec_fill]; split_ifs <;> rfl
  | _ => rfl

/-- A query answers at most 256 (R27). -/
theorem numExec_res_le_of_isQuery (hq : i.isQuery = true) : (numExec i d n).1.res ≤ 256 := by
  cases i with
  | get idx => exact (Bool.toNat_le _).trans (by decide)
  | popcnt => exact numPopcount_le n.v
  | highbit => exact numBitLength_le n.v
  | _ => contradiction

/-- V is written by its named commands only (R20). -/
theorem numExec_v_of_not_writesV (h : i.writesV = false) : (numExec i d n).1.v = n.v := by
  cases i with
  | nop | rdv | wrb | rdb | rdst | clrst | get | popcnt | highbit => rfl
  | _ => contradiction

/-- B is written by WRB only (R21). -/
theorem numExec_b_of_not_writesB (h : i.writesB = false) : (numExec i d n).1.b = n.b := by
  cases i with
  | wrb limb => contradiction
  | shift dist => rw [numExec]; split_ifs <;> rfl
  | fill start stop => rw [numExec_fill]; split_ifs <;> rfl
  | _ => rfl

end Fields

/-- The number of a value as a 256-bit word is its `val` (R8). -/
theorem wordOf_toNat (x : Value) : (wordOf x).toNat = x.val := by
  rw [wordOf, BitVec.toNat_ofNat, Nat.mod_eq_of_lt x.val_lt]

theorem wordOf_injective {x y : Value} (h : wordOf x = wordOf y) : x = y :=
  Value.val_injective (by rw [← wordOf_toNat, h, wordOf_toNat])

/-- LOSS on the numbers is what the statements call `lossAfter` (R26). -/
theorem numExec_loss (i : Instr) (d : Limb) (s : State) : (numExec i d s.numeric).1.loss = lossAfter i s := by
  cases i with
  | lshift | rshift => simp [numExec, lossAfter, NumState.shiftLeft, NumState.shiftRight, wordOf_toNat]
  | shift dist =>
    rcases lt_trichotomy dist.toInt 0 with h | h | h
    · simp [numExec, lossAfter, NumState.shiftRight, wordOf_toNat, h, not_le.mpr h, not_lt.mpr h.le]
    · simp [numExec, lossAfter, NumState.shiftLeft_zero, h]
    · simp [numExec, lossAfter, NumState.shiftLeft, wordOf_toNat, h, h.le]
  | fill start stop => rw [numExec_fill]; split_ifs <;> rfl
  | _ => rfl

/-! ### The state after a command, field by field -/

/-- Every command answers a next state (R247). -/
theorem exec_next (i : Instr) (s : State) : ∃ t, exec i s = .next t := by
  obtain ⟨t, ht, -⟩ := exec_answers_numExec i s
  exact ⟨t, ht⟩

section Exec

variable {i : Instr} {s t : State} (h : exec i s = .next t)

include h

theorem exec_numeric_dout : (t.numeric, t.dout.toNat) = numExec i s.pins.din s.numeric := by
  obtain ⟨u, hu, -, hnum⟩ := exec_answers_numExec i s
  cases hu.symm.trans h
  exact hnum

theorem exec_numeric : t.numeric = (numExec i s.pins.din s.numeric).1 := congrArg Prod.fst (exec_numeric_dout h)

theorem exec_ecode : t.ecode = if i.rejectedRange = true then 3 else if i = .rdst then s.ecode else 0 := by
  apply BitVec.eq_of_toNat_eq
  have hnum : t.ecode.toNat = _ := (congrArg NumState.ecode (exec_numeric h)).trans (numExec_ecode i _ _)
  rw [hnum]
  split_ifs <;> rfl

theorem exec_sticky : t.sticky = if i.rejectedRange = true then true else if i = .clrst then false else s.sticky :=
  (congrArg NumState.sticky (exec_numeric h)).trans (numExec_sticky i _ _)

theorem exec_loss : t.loss = lossAfter i s := (congrArg NumState.loss (exec_numeric h)).trans (numExec_loss i _ s)

theorem exec_res_toNat : t.res.toNat = (numExec i s.pins.din s.numeric).1.res :=
  congrArg NumState.res (exec_numeric h)

theorem exec_res_of_not_isQuery (hq : i.isQuery = false) (hc : i ≠ .clrst) : t.res = s.res :=
  BitVec.eq_of_toNat_eq ((exec_res_toNat h).trans (numExec_res_of_not_isQuery i _ _ hq hc))

theorem exec_v_of_not_writesV (hv : i.writesV = false) : t.v = s.v :=
  wordOf_injective ((congrArg NumState.v (exec_numeric h)).trans (numExec_v_of_not_writesV i _ _ hv))

theorem exec_b_of_not_writesB (hb : i.writesB = false) : t.b = s.b :=
  wordOf_injective ((congrArg NumState.b (exec_numeric h)).trans (numExec_b_of_not_writesB i _ _ hb))

end Exec

/-! ### The edges of the clock -/

theorem step_reset {s : State} (h : s.pins.rst = true) : step s = .next s.resetEdge := by
  simp [step, clockEdge, h]

theorem step_idle {s : State} (hr : s.pins.rst = false) (hv : s.pins.cmdValid = false) :
    step s = .next s.idleEdge := by
  simp [step, clockEdge, hr, hv]

theorem accepting_iff (s : State) : s.accepting = true ↔ s.pins.rst = false ∧ s.pins.cmdValid = true := by
  simp [State.accepting]

/-- A presented word that does not decode is rejected (R74, R203). -/
theorem step_decode_error {s : State} {e : ErrorCode} (ha : s.accepting = true) (hd : decode s.pins.cmd = .error e) :
    step s = .next (s.reject e).advance := by
  obtain ⟨hr, hv⟩ := (accepting_iff s).mp ha
  simp [step, clockEdge, commandStep, advanceOutcome, hr, hv, hd]

/-- A presented word that decodes runs the meaning of its command (R74). -/
theorem step_decode_ok {s t : State} {i : Instr} (ha : s.accepting = true) (hd : decode s.pins.cmd = .ok i)
    (ht : exec i s = .next t) : step s = .next t.advance := by
  obtain ⟨hr, hv⟩ := (accepting_iff s).mp ha
  simp [step, clockEdge, commandStep, advanceOutcome, hr, hv, hd, ht]

/-- What each kind of edge keeps, every step keeps. -/
theorem step_keeps {P : State → Prop} (hreset : ∀ s : State, P s.resetEdge) (hidle : ∀ s : State, P s → P s.idleEdge)
    (hreject : ∀ (s : State) (e : ErrorCode), P s → P (s.reject e))
    (hexec : ∀ {i : Instr} {s u : State}, P s → exec i s = .next u → P u)
    (hadvance : ∀ s : State, P s → P s.advance) {s t : State} (hs : P s) (h : step s = .next t) : P t := by
  obtain ⟨-, rfl⟩ | ⟨-, -, rfl⟩ | ⟨-, -, ⟨e, -, rfl⟩ | ⟨i, u, -, hu, rfl⟩⟩ := clockEdge_cases s h
  · exact hreset s
  · exact hidle s hs
  · exact hadvance _ (hreject s e hs)
  · exact hadvance u (hexec hs hu)

end Machine

end Sys2Proof

/-! The invariant of the status register (R25, R205), and STICKY after every edge (R29). -/

namespace Sys2Proof.Machine

/-- RES stays at most 256 and ECODE at most 3 through every command (R27, R28). -/
theorem exec_keeps_legalStatus {i : Instr} {s t : State} (hs : s.LegalStatus) (h : exec i s = .next t) :
    t.LegalStatus := by
  obtain ⟨hres, hecode⟩ := hs
  constructor
  · rw [exec_res_toNat h]
    cases hq : i.isQuery with
    | true => exact numExec_res_le_of_isQuery i _ _ hq
    | false =>
      by_cases hc : i = .clrst
      · subst hc
        exact Nat.zero_le 256
      · rwa [numExec_res_of_not_isQuery i _ _ hq hc]
  · rw [exec_ecode h]
    split_ifs
    · decide
    · exact hecode
    · decide

theorem step_keeps_legalStatus {s t : State} (hs : s.LegalStatus) (h : step s = .next t) : t.LegalStatus :=
  step_keeps (P := State.LegalStatus) (fun _ => ⟨Nat.zero_le _, Nat.zero_le _⟩) (fun _ hs => hs)
    (fun _ e ⟨hres, _⟩ => ⟨hres, e.code_toNat_le⟩) exec_keeps_legalStatus (fun _ hs => hs) hs h

/-- ECODE ≠ 0 implies STICKY = 1 through every command: only RDST leaves a nonzero ECODE, and it leaves STICKY too
(R108, R205). -/
theorem exec_keeps_errorRecorded {i : Instr} {s t : State} (hs : s.ErrorRecorded) (h : exec i s = .next t) :
    t.ErrorRecorded := by
  rw [State.ErrorRecorded, exec_ecode h, exec_sticky h]
  split_ifs with hrange hrdst hclrst
  · exact fun _ => rfl
  · simp [hrdst] at hclrst
  · exact hs
  · exact fun hne => absurd rfl hne
  · exact fun hne => absurd rfl hne

theorem step_keeps_errorRecorded {s t : State} (hs : s.ErrorRecorded) (h : step s = .next t) : t.ErrorRecorded :=
  step_keeps (P := State.ErrorRecorded) (fun _ hne => absurd rfl hne) (fun _ hs => hs) (fun _ _ _ _ => rfl)
    exec_keeps_errorRecorded (fun _ hs => hs) hs h

/-- Settles O18: both halves of the invariant are kept by each kind of edge. -/
theorem stepKeepsStatusInvariant : Obligations.StepKeepsStatusInvariant :=
  fun _ _ ⟨hlegal, hrecorded⟩ h => ⟨step_keeps_legalStatus hlegal h, step_keeps_errorRecorded hrecorded h⟩

theorem errorOf_of_decode_error {w : CommandWord} {e : ErrorCode} (h : decode w = .error e) : errorOf w = some e := by
  simp [errorOf, h]

theorem errorOf_of_decode_ok {w : CommandWord} {i : Instr} (h : decode w = .ok i) :
    errorOf w = if i.rejectedRange = true then some .fillRange else none := by
  simp [errorOf, h]

/-- STICKY after a presented command: set by a rejection, cleared by CLRST (R29). -/
theorem step_sticky_of_accepting {s : State} (ha : s.accepting = true) :
    ∃ t, step s = .next t ∧
      t.sticky = if errorOf s.pins.cmd ≠ none then true else if decode s.pins.cmd = .ok .clrst then false else s.sticky := by
  cases hd : decode s.pins.cmd with
  | error e => exact ⟨_, step_decode_error ha hd, by simp [errorOf_of_decode_error hd, State.reject_eq]⟩
  | ok i =>
    obtain ⟨t, ht⟩ := exec_next i s
    refine ⟨_, step_decode_ok ha hd ht, ?_⟩
    rw [State.advance_sticky, exec_sticky ht, errorOf_of_decode_ok hd]
    cases i.rejectedRange <;> simp

/-- Settles O19: reset and idle edges by their definitions, a presented command by `step_sticky_of_accepting`, and the
invariant by `step_keeps_errorRecorded`. -/
theorem stickyRecordsEveryRejection : Obligations.StickyRecordsEveryRejection := by
  refine ⟨fun s => ?_, fun hne => absurd rfl hne, fun _ _ => step_keeps_errorRecorded⟩
  cases hr : s.pins.rst with
  | true => exact ⟨_, step_reset hr, rfl⟩
  | false =>
    cases hv : s.pins.cmdValid with
    | false => exact ⟨_, step_idle hr hv, rfl⟩
    | true => simpa using step_sticky_of_accepting ((accepting_iff s).mpr ⟨hr, hv⟩)

end Sys2Proof.Machine

/-! ECODE after a presented word, in the order of the checks (R28, R204): the rows of the opcode table against the
decoder. -/

namespace Sys2Proof

/-- The decoder lists every opcode of the table, with the table's reserved bits (R71). -/
theorem ofByte_opc_of_mem_opcodeTable :
    ∀ r ∈ opcodeTable, (Opcode.ofByte r.opc).map (fun op => op.format.reservedMask) = some r.reserved := by
  decide

/-- Every command has a row of the table (R71). -/
theorem exists_opcodeTable_opc (op : Opcode) : ∃ r ∈ opcodeTable, r.opc = op.byte := by
  cases op <;> decide

/-- The opcode map read from the byte answers the command with that byte (R71). -/
theorem Opcode.byte_of_ofByte {b : OpcodeByte} {op : Opcode} (h : Opcode.ofByte b = some op) : op.byte = b := by
  apply BitVec.eq_of_toNat_eq
  unfold Opcode.ofByte at h
  split at h <;> cases h <;> exact Eq.symm ‹_›

/-- A word with an opcode that no row has is an illegal opcode (R72). -/
theorem decode_of_opc_not_in_table {w : CommandWord} (h : ∀ r ∈ opcodeTable, r.opc ≠ opcField w) :
    decode w = .error .illegalOpcode := by
  cases hop : Opcode.ofByte (opcField w) with
  | none => simp [decode, hop]
  | some op =>
    obtain ⟨r, hr, hopc⟩ := exists_opcodeTable_opc op
    exact absurd (hopc.trans (Opcode.byte_of_ofByte hop)) (h r hr)

/-- A word with the opcode of a row decodes to its command where the row's reserved bits are 0, and to a reserved-field
error elsewhere (R73). -/
theorem decode_of_opc_mem_opcodeTable {w : CommandWord} {r : TableRow} (hr : r ∈ opcodeTable) (hopc : r.opc = opcField w) :
    ∃ op : Opcode, op.byte = r.opc ∧
      decode w = if w &&& r.reserved = 0 then .ok (op.operands w) else .error .reservedField := by
  obtain ⟨op, hop, hres⟩ := Option.map_eq_some_iff.mp (ofByte_opc_of_mem_opcodeTable r hr)
  exact ⟨op, Opcode.byte_of_ofByte hop, by simp [decode, ← hopc, hop, hres]⟩

namespace Machine

/-- FILL's own check, on the fields of the word (R170). -/
theorem rejectedRange_fill_fields (w : CommandWord) :
    (Instr.fill (startField w) (endField w)).rejectedRange = true ↔
      ¬(startField w ≤ endField w ∧ endField w ≤ 256) := by
  rw [Instr.rejectedRange_fill, Bool.not_eq_true', decide_eq_false_iff_not]
  rfl

/-- ECODE after a word that decodes, read from the opcode byte: FILL (0x30) with illegal bounds writes 3, RDST (0x05)
leaves it (R28). -/
theorem exec_operands_ecode {op : Opcode} {w : CommandWord} {s t : State} (h : exec (op.operands w) s = .next t) :
    t.ecode =
      if op.byte = 0x30 ∧ ¬(startField w ≤ endField w ∧ endField w ≤ 256) then 3
      else if op.byte = 0x05 then s.ecode else 0 := by
  rw [exec_ecode h]
  cases op with
  | fill => simp only [Opcode.operands, rejectedRange_fill_fields, Opcode.byte]; simp
  | _ => simp [Opcode.operands, Opcode.byte, Instr.rejectedRange]

/-- Settles O11: the three checks of R204 are the decoder's two errors and the command's own end. -/
theorem ecodeFollowsCheckOrder : Obligations.EcodeFollowsCheckOrder := by
  intro s ha
  cases hd : decode s.pins.cmd with
  | error e =>
    refine ⟨_, step_decode_error ha hd, fun hnone => ?_, fun r hr hopc => ?_⟩
    · cases (decode_of_opc_not_in_table hnone).symm.trans hd
      rfl
    · obtain ⟨op, -, hrow⟩ := decode_of_opc_mem_opcodeTable hr hopc
      rw [hd] at hrow
      split_ifs at hrow with hres
      cases hrow
      exact ⟨fun _ => rfl, fun h0 => absurd h0 hres⟩
  | ok i =>
    obtain ⟨t, ht⟩ := exec_next i s
    refine ⟨_, step_decode_ok ha hd ht, fun hnone => ?_, fun r hr hopc => ?_⟩
    · cases (decode_of_opc_not_in_table hnone).symm.trans hd
    · obtain ⟨op, hbyte, hrow⟩ := decode_of_opc_mem_opcodeTable hr hopc
      rw [hd] at hrow
      split_ifs at hrow with hres
      cases hrow
      exact ⟨fun hne => absurd hres hne, fun _ => by rw [← hbyte, State.advance_ecode, exec_operands_ecode ht]⟩

end Machine

end Sys2Proof

/-! LOSS, RES, V and B after every command, what they depend on, and the STATUS word (R20, R21, R26, R27, R30, R31). -/

namespace Sys2Proof.Machine

/-- Settles O20: the numeric reading of LOSS, and a rejection leaves it. -/
theorem lossIsTheLastShifts : Obligations.LossIsTheLastShifts := by
  refine ⟨fun i s => ?_, fun s e ha hd => ⟨_, step_decode_error ha hd, rfl⟩⟩
  obtain ⟨t, ht⟩ := exec_next i s
  exact ⟨t, ht, exec_loss ht⟩

/-- Bit i of the number is a digit of `val` in base 2 (R8). -/
theorem getLsbD_wordOf_toNat (x : Value) (i : Nat) : ((wordOf x).getLsbD i).toNat = x.val / 2 ^ i % 2 := by
  rw [← wordOf_toNat, ← BitVec.testBit_toNat, Nat.toNat_testBit]

/-- The number of set bits of the number is that of the value, bit by bit (R152). -/
theorem numPopcount_wordOf (x : Value) : numPopcount (wordOf x) = setBitsWhere x fun _ => true := by
  simp [numPopcount, popcountBits, setBitsWhere]

/-- Settles O21: each query's result is its numeric definition; the commands that are no query leave RES. -/
theorem resIsTheLastQuerys : Obligations.ResIsTheLastQuerys := by
  refine ⟨fun i s => ?_, fun s e ha hd => ⟨_, step_decode_error ha hd, rfl⟩⟩
  obtain ⟨t, ht⟩ := exec_next i s
  refine ⟨t, ht, ?_⟩
  have hres := exec_res_toNat ht
  cases i with
  | get idx =>
    have hbit : t.res.toNat = ((wordOf s.v).getLsbD idx.toNat).toNat := hres
    exact ⟨hbit.trans (getLsbD_wordOf_toNat s.v _), hbit.trans_le (Bool.toNat_le _)⟩
  | popcnt =>
    have hcount : t.res.toNat = numPopcount (wordOf s.v) := hres
    exact ⟨hcount.trans (numPopcount_wordOf s.v), hcount.trans_le (numPopcount_le _)⟩
  | highbit =>
    have hlength : t.res.toNat = numBitLength (wordOf s.v) := hres
    have hleast (n : Nat) : t.res.toNat ≤ n ↔ s.v.val < 2 ^ n := by
      rw [hlength, numBitLength_le_iff, wordOf_toNat]
    exact ⟨(hleast _).mp le_rfl, fun n => (hleast n).mpr, hlength.trans_le (numBitLength_le _)⟩
  | clrst => exact BitVec.eq_of_toNat_eq hres
  | _ => exact exec_res_of_not_isQuery ht rfl (by simp)

/-! ### What a command reads -/

section Operands

variable (i : Instr) (d : Limb) {n n' : NumState}

theorem numExec_loss_congr (hv : n.v = n'.v) (hi : i.isShift = true) :
    (numExec i d n).1.loss = (numExec i d n').1.loss := by
  cases i with
  | lshift | rshift => simp [numExec, NumState.shiftLeft, NumState.shiftRight, hv]
  | shift dist => simp only [numExec, NumState.shiftLeft, NumState.shiftRight, hv]; split_ifs <;> rfl
  | _ => contradiction

theorem numExec_res_congr (hv : n.v = n'.v) (hi : i.isQuery = true) :
    (numExec i d n).1.res = (numExec i d n').1.res := by
  cases i with
  | get | popcnt | highbit => simp [numExec, hv]
  | _ => contradiction

theorem NumState.selected_congr (hv : n.v = n'.v) (hb : n.b = n'.b) (op : OpSel) : n.selected op = n'.selected op := by
  cases op with
  | b => exact hb
  | v => exact hv

theorem numExec_v_congr (hv : n.v = n'.v) (hb : n.b = n'.b) : (numExec i d n).1.v = (numExec i d n').1.v := by
  cases i with
  | shift dist => simp only [numExec, NumState.shiftLeft, NumState.shiftRight, hv]; split_ifs <;> rfl
  | fill start stop => rw [numExec_fill, numExec_fill]; split_ifs <;> simp [hv]
  | ior op | and op | xor op => simp [numExec, hv, NumState.selected_congr hv hb op]
  | _ => simp [numExec, NumState.shiftLeft, NumState.shiftRight, hv]

theorem numExec_b_congr (hb : n.b = n'.b) : (numExec i d n).1.b = (numExec i d n').1.b := by
  cases hi : i.writesB with
  | true =>
    cases i with
    | wrb limb => simp [numExec, hb]
    | _ => contradiction
  | false => rw [numExec_b_of_not_writesB i d n hi, numExec_b_of_not_writesB i d n' hi, hb]

theorem numExec_dout_congr (hv : n.v = n'.v) (hb : n.b = n'.b) (hi : i.readsLimb = true) :
    (numExec i d n).2 = (numExec i d n').2 := by
  cases i with
  | rdv | rdb => simp [numExec, hv, hb]
  | _ => contradiction

end Operands

/-- Settles O24: the numeric reading of a command computes its values from V, B and `din` only. -/
theorem noCommandReadsAFlag : Obligations.NoCommandReadsAFlag := by
  intro i s s' hv hb hdin
  obtain ⟨t, ht⟩ := exec_next i s
  obtain ⟨t', ht'⟩ := exec_next i s'
  have hnv : s.numeric.v = s'.numeric.v := congrArg wordOf hv
  have hnb : s.numeric.b = s'.numeric.b := congrArg wordOf hb
  have hnum := exec_numeric_dout ht
  have hnum' := exec_numeric_dout ht'
  rw [hdin] at hnum
  have hfield {α : Type} (f : NumState × Nat → α)
      (h : f (numExec i s'.pins.din s.numeric) = f (numExec i s'.pins.din s'.numeric)) :
      f (t.numeric, t.dout.toNat) = f (t'.numeric, t'.dout.toNat) := by
    rw [hnum, hnum', h]
  refine ⟨t, t', ht, ht', ?_, ?_, fun hi => ?_, fun hi => ?_, fun hi => ?_, fun hi => ?_⟩
  · exact wordOf_injective (hfield (·.1.v) (numExec_v_congr i _ hnv hnb))
  · exact wordOf_injective (hfield (·.1.b) (numExec_b_congr i _ hnb))
  · exact hfield (·.1.loss) (numExec_loss_congr i _ hnv hi)
  · exact BitVec.eq_of_toNat_eq (hfield (·.1.res) (numExec_res_congr i _ hnv hi))
  · exact BitVec.eq_of_toNat_eq (hfield (·.2) (numExec_dout_congr i _ hnv hnb hi))
  · rw [exec_ecode ht, exec_ecode ht', if_neg hi, if_neg hi]

/-! ### Frames -/

/-- No command touches the input levels, the schedule or the counter of free values. -/
theorem exec_keeps_inputs {i : Instr} {s t : State} (h : exec i s = .next t) :
    t.pins = s.pins ∧ t.schedule = s.schedule ∧ t.freeIndex = s.freeIndex := by
  cases i with
  | shift dist =>
    rcases lt_trichotomy (signedDistance dist) 0 with hd | hd | hd
    · cases (exec_shift_neg s hd).symm.trans h; exact ⟨rfl, rfl, rfl⟩
    · cases (exec_shift_zero s hd).symm.trans h; exact ⟨rfl, rfl, rfl⟩
    · cases (exec_shift_pos s hd).symm.trans h; exact ⟨rfl, rfl, rfl⟩
  | fill start stop =>
    cases hok : fillOk start.toNat stop.toNat with
    | true => cases (exec_fill_ok s hok).symm.trans h; exact ⟨rfl, rfl, rfl⟩
    | false => cases (exec_fill_rejected s hok).symm.trans h; exact ⟨rfl, rfl, rfl⟩
  | _ => cases h; exact ⟨rfl, rfl, rfl⟩

/-- Settles O25: the frames of V and B on the numbers, and of the model's own fields. -/
theorem onlyTheNamedCommandsWriteVAndB : Obligations.OnlyTheNamedCommandsWriteVAndB := by
  intro i s
  obtain ⟨t, ht⟩ := exec_next i s
  exact ⟨t, ht, exec_v_of_not_writesV ht, exec_b_of_not_writesB ht, exec_keeps_inputs ht⟩

/-! ### The STATUS word -/

/-- A field of a word that reads as `f` when the word is read in base 2. -/
theorem extractLsb'_eq_of_digits {w len lo : Nat} {x : BitVec w} {f : BitVec len}
    (h : x.toNat / 2 ^ lo % 2 ^ len = f.toNat) : x.extractLsb' lo len = f :=
  BitVec.eq_of_toNat_eq (by rw [BitVec.extractLsb'_toNat, Nat.shiftRight_eq_div_pow, h])

/-- A bit of a word that reads as `f` when the word is read in base 2. -/
theorem getLsbD_eq_of_digit {w i : Nat} {x : BitVec w} {f : Bool} (h : x.toNat / 2 ^ i % 2 = f.toNat) :
    x.getLsbD i = f := by
  rw [← BitVec.testBit_toNat, Nat.testBit_eq_decide_div_mod_eq, h]
  cases f <;> rfl

/-- Settles O16: STATUS is the weighted sum of its fields, and each field is a run of its digits in base 2. -/
theorem statusWordLayout : Obligations.StatusWordLayout := by
  intro s
  have hsum : s.statusWord.toNat
      = s.res.toNat + s.loss.toNat * 2 ^ 9 + s.ecode.toNat * 2 ^ 10 + s.sticky.toNat * 2 ^ 13 := statusWord_toNat s
  have hres := s.res.isLt
  have hecode := s.ecode.isLt
  have hloss := Bool.toNat_lt s.loss
  have hsticky := Bool.toNat_lt s.sticky
  refine ⟨extractLsb'_eq_of_digits ?reserved, extractLsb'_eq_of_digits ?res, getLsbD_eq_of_digit ?loss,
    extractLsb'_eq_of_digits ?ecode, getLsbD_eq_of_digit ?sticky, hsum⟩
  case reserved => change _ = 0; rw [hsum]; omega
  all_goals rw [hsum]; omega

end Sys2Proof.Machine

/-! One edge of the clock on the numbers, then a run as the fold of its edges (R49, R62, R74, R240); and the data bus bit by
bit (R43). -/

namespace Sys2Proof.Machine

/-! ### The command step -/

/-- Where no row of the table has the word's opcode, the decoder answers an illegal opcode (R72). -/
theorem decode_of_rowOf_none {w : CommandWord} (h : rowOf w = none) : decode w = .error .illegalOpcode :=
  decode_of_opc_not_in_table fun r hr hopc => List.find?_eq_none.mp h r hr (beq_iff_eq.mpr hopc)

/-- Where a row of the table has the word's opcode, the decoder checks that row's reserved bits (R73). -/
theorem decode_of_rowOf_some {w : CommandWord} {r : TableRow} (h : rowOf w = some r) :
    ∃ op : Opcode, decode w = if w &&& r.reserved = 0 then .ok (op.operands w) else .error .reservedField := by
  have hopc : r.opc = opcField w := beq_iff_eq.mp (List.find?_some (p := fun r : TableRow => r.opc == opcField w) h)
  obtain ⟨op, -, hdecode⟩ := decode_of_opc_mem_opcodeTable (List.mem_of_find?_eq_some h) hopc
  exact ⟨op, hdecode⟩

/-- The table's two checks reject a word for the decoder's reason, in the decoder's order (R74, R204). -/
theorem numCommand_of_decode_error {c : Command} {e : ErrorCode} (n : NumState) (h : decode c.cmd = .error e) :
    numCommand c n = n.rejected e.code.toNat := by
  cases hrow : rowOf c.cmd with
  | none =>
    cases (decode_of_rowOf_none hrow).symm.trans h
    simp only [numCommand, hrow]
    rfl
  | some r =>
    obtain ⟨op, hdecode⟩ := decode_of_rowOf_some hrow
    rw [h] at hdecode
    split_ifs at hdecode with hres
    cases hdecode
    simp only [numCommand, hrow, if_pos hres, ne_eq]
    rfl

/-- A word that decodes passes the table's two checks (R74). -/
theorem numCommand_of_decode_ok {c : Command} {i : Instr} (n : NumState) (h : decode c.cmd = .ok i) :
    numCommand c n = numExec i c.din n := by
  cases hrow : rowOf c.cmd with
  | none => cases (decode_of_rowOf_none hrow).symm.trans h
  | some r =>
    obtain ⟨op, hdecode⟩ := decode_of_rowOf_some hrow
    rw [h] at hdecode
    split_ifs at hdecode with hres
    simp [numCommand, hrow, hres, h]

/-- A presented word, legal or not, answers what the numeric command step does (R74). -/
theorem commandStep_answers (s : State) :
    Answers (commandStep s) (numCommand ⟨s.pins.cmd, s.pins.din⟩ s.numeric) := by
  cases hd : decode s.pins.cmd with
  | error e =>
    rw [numCommand_of_decode_error s.numeric hd, commandStep, hd]
    exact answers_reject s e
  | ok i =>
    rw [numCommand_of_decode_ok s.numeric hd, commandStep, hd]
    exact exec_answers_numExec i s

/-! ### One edge of the clock -/

@[simp] theorem numeric_advance (s : State) : s.advance.numeric = s.numeric := rfl

@[simp] theorem numeric_noResponse (s : State) : s.noResponse.numeric = s.numeric := rfl

theorem wordOf_zero : wordOf Value.zero = 0 := by simp [wordOf, Value.val, Value.zero]

/-- On the numbers, every field is 0 after a reset edge (R241). -/
theorem numeric_resetEdge (s : State) :
    s.resetEdge.numeric = { v := 0, b := 0, res := 0, loss := false, ecode := 0, sticky := false } := by
  simp [State.numeric, State.resetEdge, wordOf_zero]

/-- An accepted command does its command step, and then the input levels move on (R62). -/
theorem step_accepting {s : State} (ha : s.accepting = true) : step s = advanceOutcome (commandStep s) := by
  obtain ⟨hr, hv⟩ := (accepting_iff s).mp ha
  simp [step, clockEdge, hr, hv]

/-- An edge that accepts a command answers what the numeric command step does (R62, R74). -/
theorem step_answers_numCommand {s : State} (ha : s.accepting = true) :
    Answers (step s) (numCommand ⟨s.pins.cmd, s.pins.din⟩ s.numeric) := by
  obtain ⟨t, ht, hanswer⟩ := commandStep_answers s
  exact ⟨t.advance, by rw [step_accepting ha, ht]; rfl, hanswer⟩

/-- Every edge does to the numbers what the numeric edge does (R62, R240). -/
theorem step_numEdge (s : State) : ∃ t, step s = .next t ∧ t.numeric = numEdge s.numeric s.pins := by
  cases hr : s.pins.rst with
  | true => exact ⟨_, step_reset hr, by rw [numEdge, if_pos hr, numeric_resetEdge]⟩
  | false =>
    cases hv : s.pins.cmdValid with
    | false => exact ⟨_, step_idle hr hv, by simp [numEdge, hr, hv, State.idleEdge]⟩
    | true =>
      obtain ⟨t, ht, -, hnum⟩ := step_answers_numCommand ((accepting_iff s).mpr ⟨hr, hv⟩)
      exact ⟨t, ht, by simp [numEdge, hr, hv, ← hnum]⟩

/-- Every edge moves the input levels on by one cycle, whatever else it does (R62). -/
theorem step_inputs {s t : State} (h : step s = .next t) :
    t.pins = s.advance.pins ∧ t.schedule = s.advance.schedule := by
  obtain ⟨-, rfl⟩ | ⟨-, -, rfl⟩ | ⟨-, -, ⟨e, -, rfl⟩ | ⟨i, u, -, hu, rfl⟩⟩ := clockEdge_cases s h
  · exact ⟨rfl, rfl⟩
  · exact ⟨rfl, rfl⟩
  · exact ⟨rfl, rfl⟩
  · obtain ⟨-, hschedule, -⟩ := exec_keeps_inputs hu
    simp [hschedule]

/-! ### The coming input levels and the run -/

@[simp] theorem coming_zero (s : State) : coming s 0 = [] := rfl

/-- n repetitions of the last entry are enough for n cycles: one more changes none of the first n entries. -/
theorem take_append_replicate_succ {α : Type} (l : List α) (x : α) (n : Nat) :
    (l ++ List.replicate (n + 1) x).take n = (l ++ List.replicate n x).take n := by
  rw [List.replicate_succ', ← List.append_assoc, List.take_append_of_le_length (by simp)]

/-- The levels of the next n + 1 cycles are the present ones and those of the n cycles after this one. -/
theorem coming_succ (s : State) (n : Nat) : coming s (n + 1) = s.pins :: coming s.advance n := by
  cases hs : s.schedule with
  | nil => simp [coming, hs, List.replicate_succ]
  | cons p ps => simpa [coming, hs] using take_append_replicate_succ (p :: ps) Pins.idle n

/-- After an edge, the coming levels are those the edge moved on to. -/
theorem coming_of_step {s t : State} (h : step s = .next t) (n : Nat) : coming t n = coming s.advance n := by
  obtain ⟨hpins, hschedule⟩ := step_inputs h
  rw [coming, coming, hpins, hschedule]

theorem run_zero (s : State) : Host.Core.run core 0 s = .next s := rfl

/-- A run goes on from the state its first step answers. -/
theorem run_succ_of_step (M : Host.Core) {s t : M.State} (h : M.step s = .next t) (n : Nat) :
    M.run (n + 1) s = M.run n t := by
  rw [Host.Core.run, h]

/-- Settles O58, by induction on the length of the run, for every start state: the first edge is `step_numEdge`, and the
levels it leaves for the rest are the tail of the coming ones. -/
theorem runIsTheFoldOfItsEdges : Obligations.RunIsTheFoldOfItsEdges := by
  intro n
  induction n with
  | zero => exact fun s => ⟨s, run_zero s, rfl⟩
  | succ n ih =>
    intro s
    obtain ⟨t, ht, hedge⟩ := step_numEdge s
    obtain ⟨u, hu, hfold⟩ := ih t
    refine ⟨u, (run_succ_of_step core ht n).trans hu, ?_⟩
    calc u.numeric = (coming t n).foldl numEdge t.numeric := hfold
      _ = (coming s.advance n).foldl numEdge (numEdge s.numeric s.pins) := by rw [coming_of_step ht, hedge]
      _ = (coming s (n + 1)).foldl numEdge s.numeric := by rw [coming_succ, List.foldl_cons]

/-! ### The data bus -/

/-- Bit b of the limb that LIMB selects is the absolute bit 64 j + b (R43). -/
theorem getLsbD_limbOperand (x : Value) (limb : LimbIndex) {b : Nat} (hb : b < 64) :
    (limbOperand x limb).getLsbD b = x.bit (64 * limb.toNat + b) :=
  (x.bit_eq_limb hb rfl).symm

/-- After a limb write, the absolute bit 64 j + b is bit b of the written word (R43). -/
theorem bit_writeLimb (x : Value) (limb : LimbIndex) (d : Limb) {b : Nat} (hb : b < 64) :
    (writeLimb x limb d).bit (64 * limb.toNat + b) = d.getLsbD b := by
  rw [Value.bit_eq_limb _ hb rfl, limbAt_writeLimb, if_pos rfl]

/-- Settles O28: `bit_writeLimb` for WRV and WRB, `getLsbD_limbOperand` for RDV and RDB. -/
theorem busBitsAreLimbBits : Obligations.BusBitsAreLimbBits :=
  fun limb s _ hb =>
    ⟨⟨_, exec_wrv s limb, bit_writeLimb s.v limb s.pins.din hb⟩,
      ⟨_, exec_wrb s limb, bit_writeLimb s.b limb s.pins.din hb⟩,
      ⟨_, exec_rdv s limb, getLsbD_limbOperand s.v limb hb⟩,
      ⟨_, exec_rdb s limb, getLsbD_limbOperand s.b limb hb⟩⟩

end Sys2Proof.Machine


/-! The operand fields of a command word, read and written, and the decoder against the encoder: each instruction has one
word, and that word decodes to it (R63 to R71). -/

namespace Sys2Proof

/-! ### A field of an encoded word -/

section Fields

variable (opc : OpcodeByte)

theorem limbField_encodeL (limb : LimbIndex) : limbField (encodeL limb opc) = limb := by
  rw [limbField, encodeL, BitVec.extractLsb'_append_eq_of_le le_rfl]
  exact BitVec.extractLsb'_append_eq_right

theorem selField_encodeS (op : OpSel) : selField (encodeS op opc) = op := by
  rw [selField, encodeS, BitVec.getLsbD_append, BitVec.getLsbD_append]
  cases op <;> rfl

theorem idxField_encodeI (idx : BitIndex) : idxField (encodeI idx opc) = idx := by
  rw [idxField, encodeI, BitVec.extractLsb'_append_eq_of_le le_rfl]
  exact BitVec.extractLsb'_append_eq_right

theorem distField_encodeD (dist : Distance) : distField (encodeD dist opc) = dist := by
  rw [distField, encodeD, BitVec.extractLsb'_append_eq_of_le (by decide)]
  exact BitVec.extractLsb'_append_eq_left

theorem startField_encodeR (start stop : Bound) : startField (encodeR start stop opc) = start := by
  rw [startField, encodeR, BitVec.extractLsb'_append_eq_of_le le_rfl]
  exact BitVec.extractLsb'_append_eq_right

theorem endField_encodeR (start stop : Bound) : endField (encodeR start stop opc) = stop := by
  rw [endField, encodeR, BitVec.extractLsb'_append_eq_of_le (by decide), BitVec.extractLsb'_append_eq_of_le (by decide)]
  exact BitVec.extractLsb'_append_eq_right

end Fields

/-- The operands read from an encoded word are those it was encoded from (R64 to R70). -/
theorem operands_encode (i : Instr) : i.opcode.operands (encode i) = i := by
  cases i with
  | nop | rdst | clrst | popcnt | highbit => rfl
  | wrv limb => exact congrArg Instr.wrv (limbField_encodeL _ limb)
  | rdv limb => exact congrArg Instr.rdv (limbField_encodeL _ limb)
  | wrb limb => exact congrArg Instr.wrb (limbField_encodeL _ limb)
  | rdb limb => exact congrArg Instr.rdb (limbField_encodeL _ limb)
  | lshift dist => exact congrArg Instr.lshift (distField_encodeD _ dist)
  | rshift dist => exact congrArg Instr.rshift (distField_encodeD _ dist)
  | shift dist => exact congrArg Instr.shift (distField_encodeD _ dist)
  | get idx => exact congrArg Instr.get (idxField_encodeI _ idx)
  | fill start stop => exact congrArg₂ Instr.fill (startField_encodeR _ start stop) (endField_encodeR _ start stop)
  | ior op => exact congrArg Instr.ior (selField_encodeS _ op)
  | and op => exact congrArg Instr.and (selField_encodeS _ op)
  | xor op => exact congrArg Instr.xor (selField_encodeS _ op)

/-! ### Decoding an encoded word -/

/-- The family EncodeMatchesFormat for every instruction. -/
theorem encode_matches_format (i : Instr) : Laws.EncodeMatchesFormat.Statement i := by
  cases i with
  | nop | rdst | clrst | popcnt | highbit => exact Laws.encodeN_fields _
  | wrv limb | rdv limb | wrb limb | rdb limb => exact Laws.encodeL_fields limb _
  | lshift dist | rshift dist | shift dist => exact Laws.encodeD_fields dist _
  | get idx => exact Laws.encodeI_fields idx _
  | fill start stop => exact Laws.encodeR_fields start stop _
  | ior op | and op | xor op => exact Laws.encodeS_fields op _

/-- The opcode byte of a command is read as that command (R71). -/
theorem Opcode.ofByte_byte (op : Opcode) : Opcode.ofByte op.byte = some op := by
  cases op <;> rfl

/-- The decoder on a word with a listed opcode is its check of the reserved bits (R73). -/
theorem decode_of_ofByte {w : CommandWord} {op : Opcode} (h : Opcode.ofByte (opcField w) = some op) :
    decode w = if w &&& op.format.reservedMask = 0 then .ok (op.operands w) else .error .reservedField := by
  simp only [decode, h]

theorem decode_encode (i : Instr) : decode (encode i) = .ok i := by
  obtain ⟨hopc, hreserved⟩ := encode_matches_format i
  rw [decode_of_ofByte (hopc ▸ i.opcode.ofByte_byte), if_pos hreserved, operands_encode]

/-- Settles O3: the encoder writes a listed opcode and no reserved bit, and each field is read where it was written. -/
theorem decodeOfEncodeIsTheInstruction : Obligations.DecodeOfEncodeIsTheInstruction :=
  decode_encode

/-! ### Encoding a decoded word -/

section Words

variable (w : CommandWord)

/-- The S bit as a field of one bit (R67). -/
theorem bit_selField : (selField w).bit = w.extractLsb' 8 1 := by
  apply BitVec.eq_of_getLsbD_eq
  intro i hi
  obtain rfl : i = 0 := by omega
  rw [selField, BitVec.getLsbD_extractLsb']
  cases w.getLsbD 8 <;> rfl

/-- The word of a format, built again from the fields that the format reads in `w`, with the opcode byte `opc` (R64). -/
def Format.rebuild (f : Format) (opc : OpcodeByte) (w : CommandWord) : CommandWord :=
  match f with
  | .n => encodeN opc
  | .l => encodeL (limbField w) opc
  | .s => encodeS (selField w) opc
  | .i => encodeI (idxField w) opc
  | .d => encodeD (distField w) opc
  | .r => encodeR (startField w) (endField w) opc

theorem encode_operands (op : Opcode) : encode (op.operands w) = op.format.rebuild op.byte w := by
  cases op <;> rfl

/-- The fields of a format and its reserved bits together are the whole word: what is built again from the fields lacks
the reserved bits only. -/
theorem Format.rebuild_eq (f : Format) : f.rebuild (opcField w) w = w &&& ~~~f.reservedMask := by
  apply BitVec.eq_of_getLsbD_eq
  intro i hi
  cases f with
  | n =>
    simp only [rebuild, encodeN, opcField, BitVec.getLsbD_append, BitVec.getLsbD_extractLsb', reservedMask]
    interval_cases i <;> simp
  | l =>
    simp only [rebuild, encodeL, limbField, opcField, BitVec.getLsbD_append, BitVec.getLsbD_extractLsb', reservedMask]
    interval_cases i <;> simp
  | s =>
    simp only [rebuild, encodeS, bit_selField, opcField, BitVec.getLsbD_append, BitVec.getLsbD_extractLsb', reservedMask]
    interval_cases i <;> simp
  | i =>
    simp only [rebuild, encodeI, idxField, opcField, BitVec.getLsbD_append, BitVec.getLsbD_extractLsb', reservedMask]
    interval_cases i <;> simp
  | d =>
    simp only [rebuild, encodeD, distField, opcField, BitVec.getLsbD_append, BitVec.getLsbD_extractLsb', reservedMask]
    interval_cases i <;> simp
  | r =>
    simp only [rebuild, encodeR, startField, endField, opcField, BitVec.getLsbD_append, BitVec.getLsbD_extractLsb',
      reservedMask]
    interval_cases i <;> simp

end Words

/-- A word that has no reserved bit set keeps all its bits where the reserved ones are cleared. -/
theorem and_not_eq_of_and_eq_zero {n : Nat} {w m : BitVec n} (h : w &&& m = 0) : w &&& ~~~m = w := by
  calc w &&& ~~~m = (w &&& m) ||| (w &&& ~~~m) := by rw [h]; exact BitVec.zero_or.symm
    _ = w := by rw [← BitVec.and_or_distrib_left, BitVec.or_not_self, BitVec.and_allOnes]

/-- The decoder accepts a word for a listed opcode with no reserved bit set, and reads its operands (R73). -/
theorem decode_ok_cases {w : CommandWord} {i : Instr} (h : decode w = .ok i) :
    ∃ op : Opcode, op.byte = opcField w ∧ w &&& op.format.reservedMask = 0 ∧ i = op.operands w := by
  cases hop : Opcode.ofByte (opcField w) with
  | none => simp [decode, hop] at h
  | some op =>
    rw [decode_of_ofByte hop] at h
    split_ifs at h with hreserved
    exact ⟨op, Opcode.byte_of_ofByte hop, hreserved, (Except.ok.inj h).symm⟩

theorem encode_of_decode_ok {w : CommandWord} {i : Instr} (h : decode w = .ok i) : encode i = w := by
  obtain ⟨op, hbyte, hreserved, rfl⟩ := decode_ok_cases h
  rw [encode_operands, hbyte, Format.rebuild_eq, and_not_eq_of_and_eq_zero hreserved]

/-- Settles O4: an accepted word is built again from the fields that were read. -/
theorem acceptedWordIsItsEncoding : Obligations.AcceptedWordIsItsEncoding :=
  fun _ _ => encode_of_decode_ok

/-- An accepted word has the opcode byte of the instruction it decodes to (R71). -/
theorem opcField_of_decode_ok {w : CommandWord} {i : Instr} (h : decode w = .ok i) : opcField w = i.opcode.byte := by
  rw [← encode_of_decode_ok h]
  exact (encode_matches_format i).1

end Sys2Proof

/-! The decoder against the opcode table: which words it accepts, which opcodes are illegal, and what a rejected word
leaves (R71 to R74). -/

namespace Sys2Proof

/-! ### The rows of the table -/

/-- The mask of a row is the opcode byte and the reserved bits, and its match is the opcode (R71). -/
theorem mask_and_bits_of_mem_opcodeTable :
    ∀ r ∈ opcodeTable, r.mask = 0x000000FF#32 ||| r.reserved ∧ r.bits = r.opc.setWidth 32 := by
  decide

/-- A row's mask covers the whole opcode byte, and its match lies within that byte (R65, R71). -/
theorem opcField_mask_of_mem_opcodeTable :
    ∀ r ∈ opcodeTable, opcField r.mask = BitVec.allOnes 8 ∧ r.bits &&& 0xFFFFFF00#32 = 0 := by
  decide

/-- No two rows have the same opcode (R71). -/
theorem opcodeTable_opc_nodup : (opcodeTable.map TableRow.opc).Nodup := by decide

theorem opcField_and (w m : CommandWord) : opcField (w &&& m) = opcField w &&& opcField m := BitVec.extractLsb'_and

theorem opcField_toNat (w : CommandWord) : (opcField w).toNat = w.toNat % 256 := by
  rw [opcField, BitVec.extractLsb'_toNat, Nat.shiftRight_zero]

/-- The low byte of a word, left in its place, is its opcode (R65). -/
theorem and_opcodeMask (w : CommandWord) : w &&& 0x000000FF#32 = (opcField w).setWidth 32 := by
  apply BitVec.eq_of_toNat_eq
  rw [BitVec.toNat_and, BitVec.toNat_setWidth, opcField_toNat, Nat.mod_eq_of_lt (by omega)]
  exact Nat.and_two_pow_sub_one_eq_mod _ 8

/-- A row accepts the words with its opcode and none of its reserved bits (R71 to R73). -/
theorem accepts_iff_of_mem_opcodeTable {r : TableRow} (hr : r ∈ opcodeTable) (w : CommandWord) :
    r.accepts w = true ↔ r.opc = opcField w ∧ w &&& r.reserved = 0 := by
  rw [TableRow.accepts, beq_iff_eq]
  constructor
  · intro h
    obtain ⟨hmask, hbits⟩ := opcField_mask_of_mem_opcodeTable r hr
    constructor
    · calc r.opc = opcField (w &&& r.mask) := by rw [h]; rfl
        _ = opcField w := by rw [opcField_and, hmask, BitVec.and_allOnes]
    · rw [TableRow.reserved, ← BitVec.and_assoc, h, hbits]
  · rintro ⟨hopc, hreserved⟩
    obtain ⟨hmask, hbits⟩ := mask_and_bits_of_mem_opcodeTable r hr
    rw [hmask, hbits, BitVec.and_or_distrib_left, and_opcodeMask, hreserved, hopc]
    exact BitVec.or_zero

theorem wellFormedWord_iff (w : CommandWord) :
    wellFormedWord w = true ↔ ∃ r ∈ opcodeTable, r.opc = opcField w ∧ w &&& r.reserved = 0 := by
  rw [wellFormedWord, List.any_eq_true]
  exact exists_congr fun r => and_congr_right fun hr => accepts_iff_of_mem_opcodeTable hr w

/-- At most one row has a given opcode. -/
theorem countP_opc_le_one (b : OpcodeByte) : opcodeTable.countP (fun r => r.opc == b) ≤ 1 := by
  have hcount := List.nodup_iff_count_le_one.mp opcodeTable_opc_nodup b
  rwa [List.count, List.countP_map] at hcount

/-! ### What the decoder accepts -/

/-- A listed opcode has a row, and the decoder checks that row's reserved bits (R73). -/
theorem exists_row_of_ofByte {w : CommandWord} {op : Opcode} (h : Opcode.ofByte (opcField w) = some op) :
    ∃ r ∈ opcodeTable, r.opc = opcField w ∧ r.reserved = op.format.reservedMask := by
  obtain ⟨r, hr, hopc⟩ := exists_opcodeTable_opc op
  have hrow : r.opc = opcField w := hopc.trans (Opcode.byte_of_ofByte h)
  refine ⟨r, hr, hrow, ?_⟩
  have hreserved := ofByte_opc_of_mem_opcodeTable r hr
  rw [hrow, h] at hreserved
  exact (Option.some.inj hreserved).symm

/-- The decoder accepts a word exactly where a row with its opcode finds no reserved bit set. -/
theorem decode_ok_iff_row (w : CommandWord) :
    (∃ i, decode w = .ok i) ↔ ∃ r ∈ opcodeTable, r.opc = opcField w ∧ w &&& r.reserved = 0 := by
  constructor
  · rintro ⟨i, hd⟩
    obtain ⟨op, hbyte, hreserved, -⟩ := decode_ok_cases hd
    obtain ⟨r, hr, hopc, hmask⟩ := exists_row_of_ofByte (hbyte ▸ op.ofByte_byte)
    exact ⟨r, hr, hopc, hmask ▸ hreserved⟩
  · rintro ⟨r, hr, hopc, hreserved⟩
    obtain ⟨op, -, hd⟩ := decode_of_opc_mem_opcodeTable hr hopc
    exact ⟨_, hd.trans (if_pos hreserved)⟩

/-- Settles O5: a row accepts the words with its opcode and none of its reserved bits, which is the decoder's own test;
the rows' opcodes differ. -/
theorem decoderAcceptsExactlyTheTable : Obligations.DecoderAcceptsExactlyTheTable := by
  refine ⟨fun w => ?_, fun w i r hd hr hacc => ?_, fun w => ?_⟩
  · rw [decode_ok_iff_row, wellFormedWord_iff]
  · rw [← opcField_of_decode_ok hd]
    exact ((accepts_iff_of_mem_opcodeTable hr w).mp hacc).1
  · rw [← List.countP_eq_length_filter]
    refine (List.countP_mono_left fun r hr hacc => ?_).trans (countP_opc_le_one (opcField w))
    exact beq_iff_eq.mpr ((accepts_iff_of_mem_opcodeTable hr w).mp hacc).1

/-! ### What the decoder rejects -/

/-- The bytes that R72 lists are those the opcode map has no command for. -/
theorem ofByte_eq_none_iff (b : OpcodeByte) : Opcode.ofByte b = none ↔ illegalByte b.toNat = true := by
  revert b
  decide

/-- R72 lists 239 bytes: 111 in the lower half, of which 17 are commands, and the whole upper half. -/
theorem illegalByte_count : ((List.range 256).filter illegalByte).length = 239 := by
  have hlow : ((List.range 128).filter illegalByte).length = 111 := by decide
  have hhigh : ((List.range 128).map (128 + ·)).filter illegalByte = (List.range 128).map (128 + ·) := by
    rw [List.filter_eq_self, List.forall_mem_map]
    intro b hb
    have hlt := List.mem_range.mp hb
    simp only [illegalByte, Bool.or_eq_true, Bool.and_eq_true, decide_eq_true_eq]
    omega
  rw [show 256 = 128 + 128 from rfl, List.range_add, List.filter_append, List.length_append, hlow, hhigh,
    List.length_map, List.length_range]

theorem decode_illegalOpcode_iff (w : CommandWord) :
    decode w = .error .illegalOpcode ↔ illegalByte (w.toNat % 256) = true := by
  rw [← opcField_toNat, ← ofByte_eq_none_iff]
  cases hop : Opcode.ofByte (opcField w) with
  | none => simp [decode, hop]
  | some op => rw [decode_of_ofByte hop]; split_ifs <;> simp

/-- A word with a nonzero reserved bit under its opcode's row is a reserved-field error (R73). -/
theorem decode_reservedField {w : CommandWord} {r : TableRow} (hr : r ∈ opcodeTable) (hopc : r.opc = opcField w)
    (hreserved : w &&& r.reserved ≠ 0) : decode w = .error .reservedField := by
  obtain ⟨op, -, hd⟩ := decode_of_opc_mem_opcodeTable hr hopc
  exact hd.trans (if_neg hreserved)

/-- A legal opcode is a listed command, or a listed command with a reserved bit set (R72, R73). -/
theorem decode_of_legalByte {w : CommandWord} (h : illegalByte (w.toNat % 256) = false) :
    (∃ i, decode w = .ok i) ∨
      (decode w = .error .reservedField ∧ ∃ r ∈ opcodeTable, r.opc = opcField w ∧ w &&& r.reserved ≠ 0) := by
  cases hop : Opcode.ofByte (opcField w) with
  | none =>
    rw [ofByte_eq_none_iff, opcField_toNat, h] at hop
    contradiction
  | some op =>
    obtain ⟨r, hr, hopc, -⟩ := exists_row_of_ofByte hop
    by_cases hreserved : w &&& r.reserved = 0
    · exact .inl ((decode_ok_iff_row w).mpr ⟨r, hr, hopc, hreserved⟩)
    · exact .inr ⟨decode_reservedField hr hopc hreserved, r, hr, hopc, hreserved⟩

namespace Machine

/-- What a word that the decoder rejects leaves: its code in ECODE, STICKY set, and V, B, RES and LOSS as they were
(R203). -/
theorem step_of_decode_error {s : State} {e : ErrorCode} (ha : s.accepting = true) (hd : decode s.pins.cmd = .error e) :
    ∃ t, step s = .next t ∧ t.ecode = e.code ∧ t.sticky = true ∧ t.v = s.v ∧ t.b = s.b ∧ t.res = s.res ∧
      t.loss = s.loss :=
  ⟨_, step_decode_error ha hd, rfl, rfl, rfl, rfl, rfl, rfl⟩

/-- Settles O6: the bytes without a command are counted and listed by evaluation, the words by the decoder's cases. -/
theorem illegalOpcodesAreRejected : Obligations.IllegalOpcodesAreRejected :=
  ⟨illegalByte_count, decode_illegalOpcode_iff, fun _ => decode_of_legalByte,
    fun _ ha hbyte => step_of_decode_error ha ((decode_illegalOpcode_iff _).mpr hbyte)⟩

/-- Settles O7: `decode_reservedField` gives the reason, `step_of_decode_error` what the rejection leaves. -/
theorem reservedBitsAreRejected : Obligations.ReservedBitsAreRejected := by
  refine ⟨fun s r hr ha hopc hreserved => step_of_decode_error ha (decode_reservedField hr hopc.symm hreserved),
    fun w i r hd hr hopc => ?_⟩
  by_contra hreserved
  cases (decode_reservedField hr hopc hreserved).symm.trans hd

/-- Settles O57: the limb-wise meanings against the numbers, and the decoder's checks against the table's. -/
theorem acceptedCommandIsTheCommandStep : Obligations.AcceptedCommandIsTheCommandStep :=
  fun _ ha => step_answers_numCommand ha

end Machine

end Sys2Proof

/-! One edge of the clock around a command: what the step runs, what it answers, and what of the inputs it reads (R62,
R74, R75, R79). -/

namespace Sys2Proof.Machine

/-- Settles O9: `step_decode_ok`, with the move to the host's next input levels written out. -/
theorem stepRunsDecodedInstruction : Obligations.StepRunsDecodedInstruction :=
  fun _ _ _ ha hd ht => step_decode_ok ha hd ht

/-! ### The response -/

/-- On the numbers, the response of a command that reads no limb is STATUS after it (R79). -/
theorem numExec_snd_of_not_readsLimb (i : Instr) (d : Limb) (n : NumState) (hi : i.readsLimb = false) :
    (numExec i d n).2 = (numExec i d n).1.status := by
  cases i with
  | rdv | rdb => contradiction
  | shift dist => rw [numExec]; split_ifs <;> rfl
  | fill start stop => rw [numExec_fill]; split_ifs <;> rfl
  | _ => rfl

section Response

variable {i : Instr} {s t : State} (h : exec i s = .next t)

include h

theorem exec_rspValid : t.rspValid = true := by
  obtain ⟨u, hu, hrsp, -⟩ := exec_answers_numExec i s
  cases hu.symm.trans h
  exact hrsp

theorem exec_dout_of_not_readsLimb (hi : i.readsLimb = false) : t.dout = t.statusWord := by
  apply BitVec.eq_of_toNat_eq
  have hdout : t.dout.toNat = (numExec i s.pins.din s.numeric).2 := congrArg Prod.snd (exec_numeric_dout h)
  rw [hdout, statusWord_toNat, exec_numeric h, numExec_snd_of_not_readsLimb i _ _ hi]

end Response

/-- Settles O22: a rejection answers STATUS, RDV and RDB the limb they read, and every other command STATUS. -/
theorem responseIsLimbOrStatus : Obligations.ResponseIsLimbOrStatus := by
  intro s ha
  cases hd : decode s.pins.cmd with
  | error e => exact ⟨_, step_decode_error ha hd, rfl, by simp, rfl⟩
  | ok i =>
    obtain ⟨t, ht⟩ := exec_next i s
    have hrsp := exec_rspValid ht
    have hv := exec_v_of_not_writesV ht
    have hb := exec_b_of_not_writesB ht
    have hstatus := exec_dout_of_not_readsLimb ht
    refine ⟨_, step_decode_ok ha hd ht, hrsp, fun limb hread => ?frame, ?dout⟩
    case frame => obtain h | h := hread <;> cases h <;> exact ⟨hv rfl, hb rfl⟩
    case dout =>
      cases i with
      | rdv limb | rdb limb => cases ht; rfl
      | _ => exact hstatus rfl

/-- Settles O14: by the kind of the edge; an accepted command responds, by the decoder's rejection or by its own end. -/
theorem responseValidOnlyAfterAcceptance : Obligations.ResponseValidOnlyAfterAcceptance := by
  intro s
  cases hr : s.pins.rst with
  | true => exact ⟨_, step_reset hr, by simp [State.resetEdge, State.accepting, hr], rfl, rfl, by simp⟩
  | false =>
    cases hv : s.pins.cmdValid with
    | false =>
      exact ⟨_, step_idle hr hv, by simp [State.idleEdge, State.accepting, hv], rfl, rfl,
        fun _ _ => ⟨rfl, rfl, rfl, rfl, rfl, rfl⟩⟩
    | true =>
      have ha : s.accepting = true := (accepting_iff s).mpr ⟨hr, hv⟩
      obtain ⟨t, ht, hrsp, -⟩ := step_answers_numCommand ha
      obtain ⟨hpins, hschedule⟩ := step_inputs ht
      exact ⟨t, ht, hrsp.trans ha.symm, hpins, hschedule, by simp⟩

/-! ### The data word -/

/-- The state with another data word at the port (R60). -/
def State.setDin (s : State) (d : Limb) : State := { s with pins := { s.pins with din := d } }

section Din

variable (s : State) (d : Limb)

/-- No edge leaves the sampled data word at the port (R62). -/
theorem State.setDin_advance : (s.setDin d).advance = s.advance := rfl

/-- A rejection leaves the data word alone. -/
theorem reject_setDin (e : ErrorCode) : (s.setDin d).reject e = (s.reject e).setDin d := rfl

/-- A command other than WRV and WRB leaves the data word alone, and its meaning does not read it (R75). -/
theorem exec_setDin {i : Instr} {t : State} (hwrv : i.opcode ≠ .wrv) (hwrb : i.opcode ≠ .wrb)
    (h : exec i s = .next t) : exec i (s.setDin d) = .next (t.setDin d) := by
  cases i with
  | wrv | wrb => contradiction
  | shift dist =>
    rcases lt_trichotomy (signedDistance dist) 0 with hd | hd | hd
    · cases (exec_shift_neg s hd).symm.trans h; exact exec_shift_neg _ hd
    · cases (exec_shift_zero s hd).symm.trans h; exact exec_shift_zero _ hd
    · cases (exec_shift_pos s hd).symm.trans h; exact exec_shift_pos _ hd
  | fill start stop =>
    cases hok : fillOk start.toNat stop.toNat with
    | true => cases (exec_fill_ok s hok).symm.trans h; exact exec_fill_ok _ hok
    | false => cases (exec_fill_rejected s hok).symm.trans h; exact exec_fill_rejected _ hok
  | _ => cases h; rfl

/-- The step on a word that is neither a WRV nor a WRB does not depend on `din` (R75). -/
theorem step_setDin (hwrv : opcField s.pins.cmd ≠ Opcode.wrv.byte)
    (hwrb : opcField s.pins.cmd ≠ Opcode.wrb.byte) :
    step (s.setDin d) = step s := by
  cases hr : s.pins.rst with
  | true => rw [step_reset hr, step_reset (s := s.setDin d) hr]; rfl
  | false =>
    cases hv : s.pins.cmdValid with
    | false => rw [step_idle hr hv, step_idle (s := s.setDin d) hr hv]; rfl
    | true =>
      have ha : s.accepting = true := (accepting_iff s).mpr ⟨hr, hv⟩
      cases hd : decode s.pins.cmd with
      | error e => rw [step_decode_error ha hd, step_decode_error (s := s.setDin d) ha hd, reject_setDin,
        State.setDin_advance]
      | ok i =>
        obtain ⟨t, ht⟩ := exec_next i s
        rw [opcField_of_decode_ok hd] at hwrv hwrb
        have ht' := exec_setDin s d (ne_of_apply_ne _ hwrv) (ne_of_apply_ne _ hwrb) ht
        rw [step_decode_ok ha hd ht, step_decode_ok (s := s.setDin d) ha hd ht', State.setDin_advance]

/-- Whatever the word, the error fields and `rsp_valid` after the step do not depend on `din` (R75). -/
theorem step_setDin_errorFields {t u : State} (ht : step s = .next t) (hu : step (s.setDin d) = .next u) :
    u.ecode = t.ecode ∧ u.sticky = t.sticky ∧ u.rspValid = t.rspValid := by
  obtain ⟨hr, rfl⟩ | ⟨hr, hv, rfl⟩ | ⟨hr, hv, ⟨e, hd, rfl⟩ | ⟨i, t', hd, ht', rfl⟩⟩ := clockEdge_cases s ht
  · cases (step_reset (s := s.setDin d) hr).symm.trans hu
    exact ⟨rfl, rfl, rfl⟩
  · cases (step_idle (s := s.setDin d) hr hv).symm.trans hu
    exact ⟨rfl, rfl, rfl⟩
  · cases (step_decode_error (s := s.setDin d) ((accepting_iff s).mpr ⟨hr, hv⟩) hd).symm.trans hu
    exact ⟨rfl, rfl, rfl⟩
  · obtain ⟨u', hu'⟩ := exec_next i (s.setDin d)
    cases (step_decode_ok (s := s.setDin d) ((accepting_iff s).mpr ⟨hr, hv⟩) hd hu').symm.trans hu
    exact ⟨(exec_ecode hu').trans (exec_ecode ht').symm, (exec_sticky hu').trans (exec_sticky ht').symm,
      (exec_rspValid hu').trans (exec_rspValid ht').symm⟩

end Din

/-- Settles O23: `step_setDin` and `step_setDin_errorFields`. -/
theorem dinIsIgnoredByOthers : Obligations.DinIsIgnoredByOthers :=
  ⟨step_setDin, fun s _ _ d => step_setDin_errorFields s d⟩

end Sys2Proof.Machine

/-! The assembler: the spec's examples, the operand ranges, and the effect of each pseudo-instruction's commands presented
one per cycle (R67, R76 to R78, R180 to R183). -/

namespace Sys2Proof

/-! ### The spec's examples -/

/-- Settles O1, by evaluating the assembler on each line. -/
theorem encodingExamplesAssemble : Obligations.EncodingExamplesAssemble :=
  ⟨by decide, by decide⟩

theorem decode_eq_ok_iff {w : CommandWord} {i : Instr} : decode w = .ok i ↔ encode i = w :=
  ⟨encode_of_decode_ok, fun h => h ▸ decode_encode i⟩

/-- Settles O2: each word is the encoding of the command it stands for. -/
theorem exampleWordsDecode : Obligations.ExampleWordsDecode := by
  simp only [Obligations.ExampleWordsDecode, decode_eq_ok_iff]
  decide

/-! ### The operand ranges -/

section Assemble

variable {l : AsmLine} {p : Prop} [Decidable p] (h : l.wellFormed = true ↔ p)

include h

/-- A line whose operands pass exactly where `p` holds is assembled exactly there (R76). -/
theorem assemble_eq_ite : l.assemble = if p then some l.commands else none := by
  rw [AsmLine.assemble]
  exact if_congr h rfl rfl

theorem assembledWords_eq_ite : assembledWords l = if p then some (l.commands.map Command.cmd) else none := by
  rw [assembledWords, assemble_eq_ite h]
  split_ifs <;> rfl

end Assemble

/-- Settles O8: for each line, its check in words. -/
theorem assemblerRefusesWideOperands : Obligations.AssemblerRefusesWideOperands := by
  refine ⟨fun limb data => ⟨?_, ?_⟩, fun limb => ⟨?_, ?_⟩, fun d => ⟨?_, ?_⟩, fun n => ?_, fun i => ⟨?_, ?_⟩,
    fun start stop => ?_, fun w => ?_, fun a3 a2 a1 a0 => ⟨?_, ?_⟩⟩
  · exact assemble_eq_ite (by simp [AsmLine.wellFormed])
  · exact assemble_eq_ite (by simp [AsmLine.wellFormed])
  · exact assembledWords_eq_ite (by simp [AsmLine.wellFormed])
  · exact assembledWords_eq_ite (by simp [AsmLine.wellFormed])
  · exact assembledWords_eq_ite (by simp [AsmLine.wellFormed, Nat.lt_succ_iff])
  · exact assembledWords_eq_ite (by simp [AsmLine.wellFormed, Nat.lt_succ_iff])
  · exact assembledWords_eq_ite (by simp [AsmLine.wellFormed])
  · exact assembledWords_eq_ite (by simp [AsmLine.wellFormed, Nat.lt_succ_iff])
  · exact assembledWords_eq_ite (by simp [AsmLine.wellFormed, Nat.lt_succ_iff])
  · exact assembledWords_eq_ite (by simp [AsmLine.wellFormed, Nat.lt_succ_iff])
  · exact assembledWords_eq_ite (by simp [AsmLine.wellFormed])
  · exact assemble_eq_ite (by simp [AsmLine.wellFormed, and_assoc])
  · exact assemble_eq_ite (by simp [AsmLine.wellFormed, and_assoc])

namespace Machine

/-! ### The aliased combinators -/

section Lanes

variable (x : Value)

/-- A lane function that is idempotent leaves a value combined with itself as it is. -/
theorem laneWise_self {f : Limb → Limb → Limb} (hf : ∀ a, f a a = a) : laneWise f x x = x :=
  Value.ext_limbs fun j hj => by rw [limbAt_laneWise f x x hj, hf]

theorem limbAt_zero (j : Nat) : Value.zero.limbAt j = 0 := by
  rcases j with _ | _ | _ | _ | j <;> rfl

/-- A value combined with itself by XOR is zero (R183). -/
theorem laneWise_xor_self : laneWise (fun a b => a ^^^ b) x x = Value.zero :=
  Value.ext_limbs fun j hj => by rw [limbAt_laneWise _ x x hj, limbAt_zero, BitVec.xor_self]; rfl

/-- Zero combined with a value by OR is the value. -/
theorem laneWise_or_zero_left : laneWise (fun a b => a ||| b) Value.zero x = x :=
  Value.ext_limbs fun j hj => by rw [limbAt_laneWise _ _ x hj, limbAt_zero]; exact BitVec.zero_or

end Lanes

/-- Settles O52: the select by its definition, the aliased results by the lane functions. -/
theorem aliasedOperandIsV : Obligations.AliasedOperandIsV :=
  ⟨fun _ => ⟨rfl, rfl⟩, fun _ => rfl, fun s => ⟨_, _, _, exec_ior s .v, exec_and s .v, exec_xor s .v,
    laneWise_self s.v fun _ => BitVec.or_self, laneWise_self s.v fun _ => BitVec.and_self, laneWise_xor_self s.v⟩⟩

/-! ### A presented program -/

section Present

variable (s : State) (cs : List Command)

@[simp] theorem State.present_v : (s.present cs).v = s.v := by cases cs <;> rfl
@[simp] theorem State.present_b : (s.present cs).b = s.b := by cases cs <;> rfl

/-- Where the schedule holds the rest of a program, the next cycle presents that rest. -/
theorem State.advance_eq_present {t : State} (h : t.schedule = cs.map commandPins) : t.advance = t.present cs := by
  cases cs <;> simp [State.advance, State.present, h]

end Present

/-- The first cycle of a presented program runs the meaning of its first command, and then presents the rest. -/
theorem run_present_cons {s t : State} {i : Instr} {d : Limb} {cs : List Command} {n : Nat}
    (h : exec i (s.present (⟨encode i, d⟩ :: cs)) = .next t) :
    Host.Core.run core (n + 1) (s.present (⟨encode i, d⟩ :: cs)) = Host.Core.run core n (t.present cs) := by
  obtain ⟨-, hschedule, -⟩ := exec_keeps_inputs h
  rw [← State.advance_eq_present cs hschedule]
  exact run_succ_of_step core (step_decode_ok rfl (decode_encode i) h) n

/-- The last cycle of a presented program. -/
theorem run_present_last {s t : State} {i : Instr} {d : Limb} {cs : List Command}
    (h : exec i (s.present (⟨encode i, d⟩ :: cs)) = .next t) :
    Host.Core.run core 1 (s.present (⟨encode i, d⟩ :: cs)) = .next (t.present cs) :=
  run_present_cons h

/-! ### The effect of each pseudo-instruction -/

section Pseudo

variable (s : State)

theorem run_zero_line : ∃ t, Host.Core.run core 1 (s.present AsmLine.zero.commands) = .next t ∧ t.v = Value.zero :=
  ⟨_, run_present_last (exec_xor _ .v), laneWise_xor_self _⟩

/-- FILL with legal bounds, presented alone, sets the bits of the range and keeps the others (R171). -/
theorem run_fill {start stop : Nat} (hle : start ≤ stop) (hstop : stop ≤ 256) :
    ∃ t, Host.Core.run core 1
        (s.present [(Instr.fill (BitVec.ofNat 9 start) (BitVec.ofNat 9 stop)).command]) = .next t ∧
      ∀ k < 256, t.v.bit k = (s.v.bit k || decide (start ≤ k ∧ k < stop)) := by
  have hstart' := resField_toNat (hle.trans hstop)
  have hstop' := resField_toNat hstop
  refine ⟨_, run_present_last (exec_fill_ok _ (fillOk_iff.mpr ?_)), fun k hk => ?_⟩
  · rw [hstart', hstop']
    exact ⟨hle, hstop⟩
  · rw [State.present_v, State.accept_eq, State.setV_v, orMask_eq_laneWise, hstart', hstop', State.present_v,
      bit_laneWise _ _ (g := or) (by simp) hk, bit_fillMask _ _ hk]

/-- The writes of a list of limbs, in order. -/
def writeLimbs (x : Value) (ws : List (LimbIndex × Nat)) : Value :=
  ws.foldl (fun y w => writeLimb y w.1 (BitVec.ofNat 64 w.2)) x

/-- Every limb of a value written, from the lowest up. -/
theorem writeLimbs_all (x : Value) (a3 a2 a1 a0 : Nat) :
    writeLimbs x [(0, a0), (1, a1), (2, a2), (3, a3)] =
      Value.tuple (BitVec.ofNat 64 a3) (BitVec.ofNat 64 a2) (BitVec.ofNat 64 a1) (BitVec.ofNat 64 a0) := rfl

/-- A program of WRVs writes its limbs of V in order, and keeps B (R104). -/
theorem run_wrvs (ws : List (LimbIndex × Nat)) :
    ∃ t, Host.Core.run core ws.length (s.present (ws.map fun w => (Instr.wrv w.1).commandWith w.2)) = .next t ∧
      t.b = s.b ∧ t.v = writeLimbs s.v ws := by
  induction ws generalizing s with
  | nil => exact ⟨_, run_zero _, State.present_b s [], State.present_v s []⟩
  | cons w ws ih =>
    obtain ⟨t, ht, hb, hv⟩ := ih ((s.present _).setV (writeLimb s.v w.1 (BitVec.ofNat 64 w.2))).accept
    exact ⟨t, (run_present_cons (exec_wrv _ w.1)).trans ht, hb, hv⟩

/-- A program of WRBs writes its limbs of B in order, and keeps V (R106). -/
theorem run_wrbs (ws : List (LimbIndex × Nat)) :
    ∃ t, Host.Core.run core ws.length (s.present (ws.map fun w => (Instr.wrb w.1).commandWith w.2)) = .next t ∧
      t.v = s.v ∧ t.b = writeLimbs s.b ws := by
  induction ws generalizing s with
  | nil => exact ⟨_, run_zero _, State.present_v s [], State.present_b s []⟩
  | cons w ws ih =>
    obtain ⟨t, ht, hv, hb⟩ := ih ((s.present _).setB (writeLimb s.b w.1 (BitVec.ofNat 64 w.2))).accept
    exact ⟨t, (run_present_cons (exec_wrb _ w.1)).trans ht, hv, hb⟩

/-- Each cycle of a program of RDVs answers its own limb of V, and keeps V (R105). -/
theorem run_rdvs (ls : List LimbIndex) (j : Nat) (hj : j < ls.length) :
    ∃ t, Host.Core.run core (j + 1) (s.present (ls.map fun l => (Instr.rdv l).command)) = .next t ∧ t.v = s.v ∧
      t.rspValid = true ∧ t.dout = limbOperand s.v ls[j] := by
  induction ls generalizing s j with
  | nil => contradiction
  | cons l ls ih =>
    cases j with
    | zero =>
      refine ⟨_, run_present_last (exec_rdv _ l), ?_, ?_, ?_⟩
      all_goals cases ls <;> rfl
    | succ j =>
      obtain ⟨t, ht, hanswer⟩ := ih ((s.present _).acceptRead (limbOperand s.v l)) j (Nat.lt_of_succ_lt_succ hj)
      exact ⟨t, (run_present_cons (exec_rdv _ l)).trans ht, hanswer⟩

theorem run_stv_line {j : Nat} (hj : j < 4) :
    ∃ t, Host.Core.run core (j + 1) (s.present AsmLine.stv.commands) = .next t ∧ t.v = s.v ∧ t.rspValid = true ∧
      t.dout = s.v.limbAt j := by
  obtain ⟨t, ht, hv, hrsp, hdout⟩ := run_rdvs s [0, 1, 2, 3] j hj
  refine ⟨t, ht, hv, hrsp, hdout.trans ?_⟩
  interval_cases j <;> rfl

theorem run_movvb_line :
    ∃ t, Host.Core.run core 2 (s.present AsmLine.movvb.commands) = .next t ∧ t.v = s.b ∧ t.b = s.b := by
  refine ⟨_, (run_present_cons (exec_xor _ .v)).trans <| run_present_last (exec_ior _ .b), ?_, rfl⟩
  calc laneWise (fun a b => a ||| b) (laneWise (fun a b => a ^^^ b) s.v s.v) s.b
      = laneWise (fun a b => a ||| b) Value.zero s.b := by rw [laneWise_xor_self]
    _ = s.b := laneWise_or_zero_left s.b

end Pseudo

/-- Settles O54: `ones` and `setbit` are FILLs, `ldv`, `ldb` and `stv` write or read the four limbs, and `zero` and
`movvb` clear V by XOR with itself. -/
theorem pseudoInstructionsHaveTheirEffect : Obligations.PseudoInstructionsHaveTheirEffect := by
  refine fun s => ⟨run_zero_line s, ?ones, fun i hi => ?setbit, fun a3 a2 a1 a0 => ?ldv, fun a3 a2 a1 a0 => ?ldb,
    fun _ hj => run_stv_line s hj, run_movvb_line s⟩
  case ones =>
    obtain ⟨t, ht, hbit⟩ := run_fill s (Nat.zero_le 256) le_rfl
    exact ⟨t, ht, fun k hk => by simp [hbit k hk, hk]⟩
  case setbit =>
    obtain ⟨t, ht, hbit⟩ := run_fill s (Nat.le_succ i) hi
    refine ⟨t, ht, fun k hk => (hbit k hk).trans ?_⟩
    simp only [Nat.lt_succ_iff, ← le_antisymm_iff, eq_comm]
  case ldv => rw [← writeLimbs_all s.v]; exact run_wrvs s [(0, a0), (1, a1), (2, a2), (3, a3)]
  case ldb => rw [← writeLimbs_all s.b]; exact run_wrbs s [(0, a0), (1, a1), (2, a2), (3, a3)]

end Machine

end Sys2Proof

/-! The results and frames of the value access, status and system commands (R103 to R109). -/

namespace Sys2Proof.Machine

variable (s : State)

/-! ### Writing and reading a limb -/

/-- Settles O26: every limb after the write is `limbAt_writeLimb`, and the end of an accepted command writes only ECODE
and the response. -/
theorem writeLimbResult : Obligations.WriteLimbResult :=
  fun limb s =>
    ⟨⟨_, exec_wrv s limb, fun k _ => limbAt_writeLimb s.v limb s.pins.din k, State.accept_eq _⟩,
      ⟨_, exec_wrb s limb, fun k _ => limbAt_writeLimb s.b limb s.pins.din k, State.accept_eq _⟩⟩

/-- The limb that LIMB selects, as a digit of `val` in base 2^64 (R8, R41). -/
theorem limbOperand_toNat_val (x : Value) (limb : LimbIndex) :
    (limbOperand x limb).toNat = x.val / 2 ^ (64 * limb.toNat) % 2 ^ 64 := by
  rw [limbOperand_toNat, wordOf_toNat]

/-- Settles O27: the answered limb is a digit of the register's number, and the end of a read writes only ECODE and the
response. -/
theorem readLimbResult : Obligations.ReadLimbResult :=
  fun limb s =>
    ⟨⟨_, exec_rdv s limb, limbOperand_toNat_val s.v limb, State.acceptRead_eq s _⟩,
      ⟨_, exec_rdb s limb, limbOperand_toNat_val s.b limb, State.acceptRead_eq s _⟩⟩

/-! ### NOP, RDST and CLRST -/

/-- The STATUS word whose four fields are clear is 0 (R25, R30). -/
theorem statusOf_clear : statusOf 0 false 0 false = 0 := by decide

/-- All that CLRST does: STATUS is cleared before the response is formed, so the response is 0 (R109). -/
theorem clearedStatus_accept_eq :
    ((((s.setRes 0).setLoss false).setEcode 0).setSticky false).accept =
      { s with res := 0, loss := false, ecode := 0, sticky := false, rspValid := true, dout := 0 } := by
  rw [← statusOf_clear]
  exact State.accept_eq _

/-- Settles O29: NOP is the end of an accepted command alone, RDST the response alone, and CLRST is
`clearedStatus_accept_eq`. -/
theorem nopRdstClrstResults : Obligations.NopRdstClrstResults :=
  fun s =>
    ⟨⟨_, exec_nop s, State.accept_eq s⟩, ⟨_, exec_rdst s, State.respondStatus_eq s⟩,
      ⟨_, exec_clrst s, statusOf_clear, clearedStatus_accept_eq s⟩⟩

end Sys2Proof.Machine

/-! The shifts of a value by d of 0 to 255, on its number, bit by bit and limb by limb, with their loss flags (R121 to
R124). -/

namespace Sys2Proof

/-! ### Values as their 256 bits -/

/-- A set bit lies among the 256 bits of the value (R7). -/
theorem Value.lt_of_bit {x : Value} {i : Nat} (h : x.bit i = true) : i < 256 := by
  by_contra hge
  rw [x.bit_of_ge (not_lt.mp hge)] at h
  contradiction

/-- Values are equal where all their bits are (R8). -/
theorem Value.eq_iff_bits {x y : Value} : x = y ↔ ∀ i < 256, x.bit i = y.bit i := by
  refine ⟨fun h i _ => by rw [h], fun h => Machine.wordOf_injective (Machine.wordOf_eq_of_bits _ fun i hi => ?_)⟩
  rw [Machine.getLsbD_wordOf, h i hi]

namespace Machine

variable (x : Value) {d : Nat}

/-- `val(X)` is below 2^n where no bit from n on is set. -/
theorem val_lt_two_pow_iff (n : Nat) : x.val < 2 ^ n ↔ ∀ i, n ≤ i → x.bit i = false := by
  rw [← wordOf_toNat, wordOf_lt_two_pow_iff]

/-! ### The left shift -/

theorem val_lsh (d : Nat) : (lsh x d).val = x.val * 2 ^ d % 2 ^ 256 := by
  rw [← wordOf_toNat, wordOf_lsh, BitVec.toNat_ofNat, wordOf_toNat]

theorem lossLeft_iff_val (hd : d ≤ 255) : lossLeft x d = true ↔ 2 ^ 256 ≤ x.val * 2 ^ d := by
  rw [lossLeft_eq x d hd, decide_eq_true_iff, wordOf_toNat]

/-- The bits that a left shift moves out are those from 256 - d on (R122). -/
theorem lossLeft_iff_bit (hd : d ≤ 255) : lossLeft x d = true ↔ ∃ i, i < 256 ∧ 256 ≤ i + d ∧ x.bit i = true := by
  rw [lossLeft_iff x d hd]
  exact ⟨fun ⟨i, hi, hbit⟩ => ⟨i, Value.lt_of_bit hbit, by omega, hbit⟩, fun ⟨i, _, hi, hbit⟩ => ⟨i, by omega, hbit⟩⟩

theorem lossLeft_eq_false_iff (hd : d ≤ 255) :
    lossLeft x d = false ↔ ∀ i < 256, 256 ≤ i + d → x.bit i = false := by
  rw [← Bool.not_eq_true, lossLeft_iff_bit x hd]
  simp

/-- LOSSL as a bound on the number; no number reaches 2^256, so distance 0 loses nothing (R122). -/
theorem lossLeft_iff_le_val (hd : d ≤ 255) : lossLeft x d = true ↔ d ≠ 0 ∧ 2 ^ (256 - d) ≤ x.val := by
  have hloss : lossLeft x d = true ↔ 2 ^ (256 - d) ≤ x.val := by
    rw [lossLeft_iff x d hd, ← not_lt, val_lt_two_pow_iff]
    simp
  refine hloss.trans ⟨fun h => ⟨?_, h⟩, And.right⟩
  rintro rfl
  exact absurd x.val_lt (not_lt.mpr h)

/-- LOSSL limb by limb, as a proposition (R122). -/
theorem lossLeft_iff_limbs (d : Nat) :
    lossLeft x d = true ↔
      (∃ m, 4 - d / 64 ≤ m ∧ m ≤ 3 ∧ x.limbAt m ≠ 0) ∨
      (d % 64 ≠ 0 ∧ x.limbAt (3 - d / 64) >>> (64 - d % 64) ≠ 0) := by
  simp only [lossLeft, Bool.or_eq_true, Bool.and_eq_true, List.any_eq_true, List.mem_range, decide_eq_true_eq,
    bne_iff_ne]
  refine or_congr_left (exists_congr fun m => ?_)
  rw [← and_assoc, ← and_assoc, and_comm (a := m < 4), Nat.lt_succ_iff]

/-- Settles O32: the number, then `bit_lsh`, then the definition. -/
theorem leftShiftDefinitionsAgree : Obligations.LeftShiftDefinitionsAgree := by
  refine fun x d _ => ⟨val_lsh x d, fun i hi => ?_, fun j hj => Value.limbAt_ofLimbs _ hj⟩
  rw [bit_lsh x d hi]
  by_cases h : d ≤ i <;> simp [h]

/-- Settles O33. -/
theorem leftLossDefinitionsAgree : Obligations.LeftLossDefinitionsAgree :=
  fun x d hd => ⟨lossLeft_iff_bit x hd, lossLeft_iff_le_val x hd, lossLeft_iff_limbs x d⟩

/-! ### The right shift -/

theorem val_rsh (d : Nat) : (rsh x d).val = x.val / 2 ^ d := by
  rw [← wordOf_toNat, wordOf_rsh, BitVec.toNat_ofNat, wordOf_toNat,
    Nat.mod_eq_of_lt ((Nat.div_le_self _ _).trans_lt x.val_lt)]

theorem lossRight_iff_val (d : Nat) : lossRight x d = true ↔ x.val % 2 ^ d ≠ 0 := by
  rw [lossRight_eq, decide_eq_true_iff, wordOf_toNat]

theorem lossRight_eq_false_iff (d : Nat) : lossRight x d = false ↔ ∀ i < d, x.bit i = false := by
  rw [← Bool.not_eq_true, lossRight_iff]
  simp

/-- No distance up to 255 reaches beyond the value's bits. -/
theorem lossRight_eq_false_iff_of_le (hd : d ≤ 255) :
    lossRight x d = false ↔ ∀ i < 256, i < d → x.bit i = false := by
  rw [lossRight_eq_false_iff]
  exact forall_congr' fun i => ⟨fun h _ => h, fun h hi => h (by omega) hi⟩

/-- LOSSR limb by limb, as a proposition; `m < 4` is no condition where d is at most 255 (R124). -/
theorem lossRight_iff_limbs (hd : d ≤ 255) :
    lossRight x d = true ↔
      (∃ m, m < d / 64 ∧ x.limbAt m ≠ 0) ∨
      (d % 64 ≠ 0 ∧ x.limbAt (d / 64) &&& BitVec.ofNat 64 (2 ^ (d % 64) - 1) ≠ 0) := by
  simp only [lossRight, Bool.or_eq_true, Bool.and_eq_true, List.any_eq_true, List.mem_range, decide_eq_true_eq,
    bne_iff_ne]
  exact or_congr_left (exists_congr fun m => and_iff_right_of_imp fun ⟨hm, _⟩ => by omega)

/-- Settles O34: the number, then `bit_rsh`, then the definition. -/
theorem rightShiftDefinitionsAgree : Obligations.RightShiftDefinitionsAgree := by
  refine fun x d _ => ⟨val_rsh x d, fun i hi => ?_, fun j hj => Value.limbAt_ofLimbs _ hj⟩
  rw [bit_rsh x d hi]
  split_ifs with h
  · rfl
  · exact x.bit_of_ge (by omega)

/-- Settles O35. -/
theorem rightLossDefinitionsAgree : Obligations.RightLossDefinitionsAgree :=
  fun x d hd => ⟨lossRight_iff x d, lossRight_iff_val x d, lossRight_iff_limbs x hd⟩

end Machine

end Sys2Proof

/-! What LSHIFT, RSHIFT and SHIFT write (R120, R125 to R127). -/

namespace Sys2Proof.Machine

variable (s : State)

/-! ### The distance of each command -/

/-- DIST and 255 are DIST mod 256 (R120). -/
theorem unsignedDistance_eq_mod (dist : Distance) : unsignedDistance dist = dist.toNat % 256 :=
  reduceDistance_eq dist.toNat

theorem unsignedDistance_eq_extractLsb' (dist : Distance) :
    unsignedDistance dist = (dist.extractLsb' 0 8).toNat := by
  rw [unsignedDistance_eq_mod, BitVec.extractLsb'_toNat, Nat.shiftRight_zero]

/-- Settles O31. -/
theorem unsignedDistanceIsReduced : Obligations.UnsignedDistanceIsReduced := by
  intro dist
  have hle : unsignedDistance dist ≤ 255 := reduceDistance_le _
  exact ⟨rfl, unsignedDistance_eq_extractLsb' dist, unsignedDistance_eq_mod dist, by omega, by omega, by omega,
    fun s => ⟨exec_lshift s dist, exec_rshift s dist⟩⟩

theorem exec_lshift_mod (dist : Distance) :
    exec (.lshift dist) s = .next (s.shiftLeft (dist.toNat % 256)).accept := by
  rw [exec_lshift, unsignedDistance_eq_mod]

theorem exec_rshift_mod (dist : Distance) :
    exec (.rshift dist) s = .next (s.shiftRight (dist.toNat % 256)).accept := by
  rw [exec_rshift, unsignedDistance_eq_mod]

/-- Everything SHIFT can do, by the sign of its distance (R127). -/
theorem exec_shift_cases (dist : Distance) :
    (dist.toInt = 0 ∧ exec (.shift dist) s = .next (s.setLoss false).accept) ∨
    (∃ n : Nat, 0 < n ∧ dist.toInt = n ∧ exec (.shift dist) s = .next (s.shiftLeft (n % 256)).accept) ∨
    (∃ n : Nat, 0 < n ∧ dist.toInt = -n ∧ exec (.shift dist) s = .next (s.shiftRight (n % 256)).accept) := by
  rcases lt_trichotomy dist.toInt 0 with h | h | h
  · refine .inr (.inr ⟨(-dist.toInt).toNat, by omega, by omega, ?_⟩)
    rw [exec_shift_neg s h, reduceDistance_eq, signedDistance]
  · exact .inl ⟨h, exec_shift_zero s h⟩
  · refine .inr (.inl ⟨dist.toInt.toNat, by omega, by omega, ?_⟩)
    rw [exec_shift_pos s h, reduceDistance_eq, signedDistance]

/-! ### Result, loss and frame -/

/-- V, LOSS and the frame after an accepted left shift by m mod 256, on numbers (R125). -/
theorem shiftLeft_accept_result (m : Nat) :
    (s.shiftLeft (m % 256)).accept.v.val = s.v.val * 2 ^ (m % 256) % 2 ^ 256 ∧
    ((s.shiftLeft (m % 256)).accept.loss = true ↔ 2 ^ 256 ≤ s.v.val * 2 ^ (m % 256)) ∧
    (s.shiftLeft (m % 256)).accept =
      { s with v := (s.shiftLeft (m % 256)).accept.v, loss := (s.shiftLeft (m % 256)).accept.loss, ecode := 0,
               rspValid := true, dout := (s.shiftLeft (m % 256)).accept.statusWord } :=
  ⟨val_lsh s.v _, lossLeft_iff_val s.v (by omega), State.accept_eq _⟩

/-- V, LOSS and the frame after an accepted right shift by m mod 256, on numbers (R126). -/
theorem shiftRight_accept_result (m : Nat) :
    (s.shiftRight (m % 256)).accept.v.val = s.v.val / 2 ^ (m % 256) ∧
    ((s.shiftRight (m % 256)).accept.loss = true ↔ s.v.val % 2 ^ (m % 256) ≠ 0) ∧
    (s.shiftRight (m % 256)).accept =
      { s with v := (s.shiftRight (m % 256)).accept.v, loss := (s.shiftRight (m % 256)).accept.loss, ecode := 0,
               rspValid := true, dout := (s.shiftRight (m % 256)).accept.statusWord } :=
  ⟨val_rsh s.v _, lossRight_iff_val s.v _, State.accept_eq _⟩

/-- Settles O36. -/
theorem lshiftResult : Obligations.LshiftResult :=
  fun dist s => ⟨_, exec_lshift_mod s dist, shiftLeft_accept_result s dist.toNat⟩

/-- Settles O37. -/
theorem rshiftResult : Obligations.RshiftResult :=
  fun dist s => ⟨_, exec_rshift_mod s dist, shiftRight_accept_result s dist.toNat⟩

/-- Settles O38: the three cases of the sign exclude each other, and each has its own result. -/
theorem shiftResult : Obligations.ShiftResult := by
  intro dist s
  obtain ⟨hz, ht⟩ | ⟨n, hn, hpos, ht⟩ | ⟨n, hn, hneg, ht⟩ := exec_shift_cases s dist
  · exact ⟨_, ht, fun _ => ⟨rfl, rfl⟩, fun m _ hm => by omega, fun m _ hm => by omega, State.accept_eq _⟩
  · obtain ⟨hv, hl, hframe⟩ := shiftLeft_accept_result s n
    refine ⟨_, ht, fun hz => by omega, fun m _ hm => ?_, fun m _ hm => by omega, hframe⟩
    obtain rfl : m = n := by omega
    exact ⟨hv, hl⟩
  · obtain ⟨hv, hl, hframe⟩ := shiftRight_accept_result s n
    refine ⟨_, ht, fun hz => by omega, fun m _ hm => by omega, fun m _ hm => ?_, hframe⟩
    obtain rfl : m = n := by omega
    exact ⟨hv, hl⟩

end Sys2Proof.Machine

/-! The laws of the shifts (R129): distance 0, period 256 and the zero value, the set bits kept and lost, the opposite
shift, and two shifts in one direction. Each is read off bit by bit. -/

namespace Sys2Proof

theorem Value.bit_zero (i : Nat) : Value.zero.bit i = false := by
  rw [← Machine.testBit_wordOf, Machine.wordOf_toNat]
  exact Nat.zero_testBit i

namespace Machine

/-! ### Shifts that change nothing (laws 1 and 7), and periodicity (law 2) -/

section Unchanged

variable (s : State)

theorem lsh_zero_distance (x : Value) : lsh x 0 = x := by
  refine Value.eq_iff_bits.mpr fun i hi => ?_
  rw [bit_lsh x 0 hi]
  simp

theorem rsh_zero_distance (x : Value) : rsh x 0 = x :=
  Value.eq_iff_bits.mpr fun _ hi => bit_rsh x 0 hi

theorem lsh_zero_value (d : Nat) : lsh Value.zero d = Value.zero := by
  refine Value.eq_iff_bits.mpr fun i hi => ?_
  rw [bit_lsh _ d hi, Value.bit_zero, Value.bit_zero, Bool.and_false]

theorem rsh_zero_value (d : Nat) : rsh Value.zero d = Value.zero := by
  refine Value.eq_iff_bits.mpr fun i hi => ?_
  rw [bit_rsh _ d hi, Value.bit_zero, Value.bit_zero]

theorem lossLeft_zero_distance (x : Value) : lossLeft x 0 = false :=
  (lossLeft_eq_false_iff x (Nat.zero_le _)).mpr fun _ hi hout => absurd hi (not_lt.mpr hout)

theorem lossRight_zero_distance (x : Value) : lossRight x 0 = false :=
  (lossRight_eq_false_iff x 0).mpr fun i hi => absurd hi i.not_lt_zero

theorem lossLeft_zero_value {d : Nat} (hd : d ≤ 255) : lossLeft Value.zero d = false :=
  (lossLeft_eq_false_iff _ hd).mpr fun i _ _ => Value.bit_zero i

theorem lossRight_zero_value (d : Nat) : lossRight Value.zero d = false :=
  (lossRight_eq_false_iff _ d).mpr fun i _ => Value.bit_zero i

/-- A left shift that leaves V and loses nothing only clears LOSS. -/
theorem shiftLeft_eq_setLoss {d : Nat} (hv : lsh s.v d = s.v) (hl : lossLeft s.v d = false) :
    s.shiftLeft d = s.setLoss false := by
  rw [State.shiftLeft_eq, hv, hl]
  rfl

/-- A right shift that leaves V and loses nothing only clears LOSS. -/
theorem shiftRight_eq_setLoss {d : Nat} (hv : rsh s.v d = s.v) (hl : lossRight s.v d = false) :
    s.shiftRight d = s.setLoss false := by
  rw [State.shiftRight_eq, hv, hl]
  rfl

theorem exec_lshift_zero_distance : exec (.lshift 0) s = .next (s.setLoss false).accept := by
  rw [← shiftLeft_eq_setLoss s (lsh_zero_distance s.v) (lossLeft_zero_distance s.v)]
  exact exec_lshift_mod s 0

theorem exec_rshift_zero_distance : exec (.rshift 0) s = .next (s.setLoss false).accept := by
  rw [← shiftRight_eq_setLoss s (rsh_zero_distance s.v) (lossRight_zero_distance s.v)]
  exact exec_rshift_mod s 0

section ZeroValue

variable {s} (hs : s.v = Value.zero)

include hs

theorem shiftLeft_zero_value (m : Nat) : s.shiftLeft (m % 256) = s.setLoss false :=
  shiftLeft_eq_setLoss s (by rw [hs, lsh_zero_value]) (by rw [hs, lossLeft_zero_value (by omega)])

theorem shiftRight_zero_value (m : Nat) : s.shiftRight (m % 256) = s.setLoss false :=
  shiftRight_eq_setLoss s (by rw [hs, rsh_zero_value]) (by rw [hs, lossRight_zero_value])

theorem exec_lshift_zero_value (dist : Distance) : exec (.lshift dist) s = .next (s.setLoss false).accept := by
  rw [exec_lshift_mod, shiftLeft_zero_value hs]

theorem exec_rshift_zero_value (dist : Distance) : exec (.rshift dist) s = .next (s.setLoss false).accept := by
  rw [exec_rshift_mod, shiftRight_zero_value hs]

theorem exec_shift_zero_value (dist : Distance) : exec (.shift dist) s = .next (s.setLoss false).accept := by
  obtain ⟨-, ht⟩ | ⟨n, -, -, ht⟩ | ⟨n, -, -, ht⟩ := exec_shift_cases s dist
  · exact ht
  · rw [ht, shiftLeft_zero_value hs]
  · rw [ht, shiftRight_zero_value hs]

end ZeroValue

/-- Adding 256 to DIST, also past its 16 bits, leaves the reduced distance (R120). -/
theorem unsignedDistance_add_256 (dist : Distance) : unsignedDistance (dist + 256) = unsignedDistance dist := by
  rw [unsignedDistance_eq_mod, unsignedDistance_eq_mod, BitVec.toNat_add, Nat.mod_mod_of_dvd _ (by decide)]
  exact Nat.add_mod_right dist.toNat 256

/-- Settles O39: by laws 1 and 7 all three commands end in one state, law 2 is about the distance alone, and law 8 names
the bit that is moved out. -/
theorem shiftsArePeriodicAndKeepZero : Obligations.ShiftsArePeriodicAndKeepZero := by
  refine ⟨fun s => ?_, fun dist s _ => ⟨?_, ?_⟩, fun dist s hs => ?_,
    fun x d hpos hd => ⟨fun hbit => ?_, fun hbit => ?_⟩⟩
  · exact ⟨_, exec_lshift_zero_distance s, exec_rshift_zero_distance s, exec_shift_zero s rfl, rfl, rfl⟩
  · rw [exec_lshift, unsignedDistance_add_256, ← exec_lshift]
  · rw [exec_rshift, unsignedDistance_add_256, ← exec_rshift]
  · exact ⟨_, _, _, exec_lshift_zero_value hs dist, exec_rshift_zero_value hs dist, exec_shift_zero_value hs dist,
      hs, hs, hs, rfl, rfl, rfl⟩
  · exact (lossLeft_iff_bit x hd).mpr ⟨255, by omega, by omega, hbit⟩
  · exact (lossRight_iff x d).mpr ⟨0, by omega, hbit⟩

end Unchanged

variable (x : Value) {d : Nat}

/-! ### The set bits kept and lost (laws 3 and 4) -/

/-- Counts of the indices below n agree where the predicates do. -/
theorem count_eq_of_forall_lt {p q : Nat → Prop} [DecidablePred p] [DecidablePred q] {n : Nat}
    (h : ∀ i < n, (p i ↔ q i)) : Nat.count p n = Nat.count q n :=
  List.countP_congr fun i hi => by simpa using h i (List.mem_range.mp hi)

theorem count_eq_zero_of_forall_lt {p : Nat → Prop} [DecidablePred p] {n : Nat} (h : ∀ i < n, ¬p i) :
    Nat.count p n = 0 :=
  List.countP_eq_zero.mpr fun i hi => by simpa using h i (List.mem_range.mp hi)

theorem popcount_eq_count : popcount x = Nat.count (fun i => x.bit i = true) 256 := by
  rw [popcount_eq, numPopcount, popcountBits, Nat.count]
  simp

theorem setBitsWhere_eq_count (p : Nat → Bool) :
    setBitsWhere x p = Nat.count (fun i => (p i && x.bit i) = true) 256 := by
  simp [setBitsWhere, Nat.count]

/-- The set bits among all 256 are those of the first a and those of the other b. -/
theorem count_split (p : Nat → Prop) [DecidablePred p] {a b : Nat} (h : a + b = 256) :
    Nat.count p 256 = Nat.count p a + Nat.count (fun i => p (a + i)) b := by
  rw [← h, Nat.count_add]

theorem setBitsWhere_eq_zero_iff (p : Nat → Bool) :
    setBitsWhere x p = 0 ↔ ∀ i < 256, p i = true → x.bit i = false := by
  simp [setBitsWhere, List.countP_eq_zero]

/-- A left shift keeps the 256 - d low bits and loses the d high ones (R129, law 3). -/
theorem popcount_lsh_add_lost (hd : d ≤ 255) :
    popcount (lsh x d) + setBitsWhere x (fun i => decide (256 ≤ i + d)) = popcount x := by
  have hkept : popcount (lsh x d) = Nat.count (fun i => x.bit i = true) (256 - d) := by
    rw [popcount_eq_count, count_split _ (show d + (256 - d) = 256 by omega), count_eq_zero_of_forall_lt, zero_add]
    · exact count_eq_of_forall_lt fun i hi => by simp [bit_lsh x d (show d + i < 256 by omega)]
    · intro i hi
      simp [bit_lsh x d (show i < 256 by omega), hi]
  have hlost : setBitsWhere x (fun i => decide (256 ≤ i + d)) =
      Nat.count (fun i => x.bit (256 - d + i) = true) d := by
    rw [setBitsWhere_eq_count, count_split _ (show 256 - d + d = 256 by omega), count_eq_zero_of_forall_lt, zero_add]
    · exact count_eq_of_forall_lt fun i _ => by simp [show 256 ≤ 256 - d + i + d by omega]
    · intro i hi
      simp [show ¬256 ≤ i + d by omega]
  rw [hkept, hlost, popcount_eq_count x, count_split _ (show 256 - d + d = 256 by omega)]

/-- A right shift keeps the 256 - d high bits and loses the d low ones (R129, law 3). -/
theorem popcount_rsh_add_lost (hd : d ≤ 255) :
    popcount (rsh x d) + setBitsWhere x (fun i => decide (i < d)) = popcount x := by
  have hkept : popcount (rsh x d) = Nat.count (fun i => x.bit (d + i) = true) (256 - d) := by
    rw [popcount_eq_count, count_split _ (show 256 - d + d = 256 by omega),
      count_eq_zero_of_forall_lt (p := fun i => (rsh x d).bit (256 - d + i) = true), add_zero]
    · exact count_eq_of_forall_lt fun i hi => by rw [bit_rsh x d (by omega), Nat.add_comm]
    · intro i hi
      rw [bit_rsh x d (by omega), x.bit_of_ge (by omega)]
      decide
  have hlost : setBitsWhere x (fun i => decide (i < d)) = Nat.count (fun i => x.bit i = true) d := by
    rw [setBitsWhere_eq_count, count_split _ (show d + (256 - d) = 256 by omega),
      count_eq_zero_of_forall_lt (n := 256 - d) (by simp), add_zero]
    exact count_eq_of_forall_lt fun i hi => by simp [hi]
  rw [hkept, hlost, popcount_eq_count x, count_split _ (show d + (256 - d) = 256 by omega), Nat.add_comm]

theorem lossLeft_eq_false_iff_setBitsWhere (hd : d ≤ 255) :
    lossLeft x d = false ↔ setBitsWhere x (fun i => decide (256 ≤ i + d)) = 0 := by
  simp only [lossLeft_eq_false_iff x hd, setBitsWhere_eq_zero_iff, decide_eq_true_eq]

theorem lossRight_eq_false_iff_setBitsWhere (hd : d ≤ 255) :
    lossRight x d = false ↔ setBitsWhere x (fun i => decide (i < d)) = 0 := by
  simp only [lossRight_eq_false_iff_of_le x hd, setBitsWhere_eq_zero_iff, decide_eq_true_eq]

/-- Settles O40: LOSS is 0 where the count of the lost set bits is. -/
theorem shiftsNeverCreateSetBits : Obligations.ShiftsNeverCreateSetBits := by
  intro x d hd
  have hleft := popcount_lsh_add_lost x hd
  have hright := popcount_rsh_add_lost x hd
  refine ⟨hleft, hright, (lossLeft_eq_false_iff_setBitsWhere x hd).trans ?_,
    (lossRight_eq_false_iff_setBitsWhere x hd).trans ?_⟩
  · omega
  · omega

/-! ### The opposite shift (law 5) -/

/-- A left shift undone keeps the bits that did not leave the value. -/
theorem bit_rsh_lsh (d : Nat) {i : Nat} (hi : i < 256) :
    (rsh (lsh x d) d).bit i = (decide (i + d < 256) && x.bit i) := by
  rw [bit_rsh _ d hi]
  by_cases h : i + d < 256
  · simp [bit_lsh x d h, h]
  · rw [Value.bit_of_ge _ (not_lt.mp h), decide_eq_false h, Bool.false_and]

/-- A right shift undone keeps the bits that did not leave the value. -/
theorem bit_lsh_rsh (d : Nat) {i : Nat} (hi : i < 256) :
    (lsh (rsh x d) d).bit i = (decide (d ≤ i) && x.bit i) := by
  rw [bit_lsh _ d hi]
  by_cases h : d ≤ i
  · rw [bit_rsh x d (by omega), Nat.sub_add_cancel h]
  · simp [h]

/-- A bit masked by a condition is unchanged where it is 0 whenever the condition fails. -/
theorem decide_and_eq_self_iff (p : Prop) [Decidable p] (c : Bool) : (decide p && c) = c ↔ (¬p → c = false) := by
  by_cases hp : p <;> simp [hp, eq_comm]

/-- Settles O41: shifting back restores the value where the bits that do not come back are all 0. -/
theorem noLossMeansReversible : Obligations.NoLossMeansReversible := by
  refine fun x d hd => ⟨?_, ?_⟩
  · rw [lossLeft_eq_false_iff x hd, Value.eq_iff_bits]
    refine forall₂_congr fun i hi => ?_
    rw [bit_rsh_lsh x d hi, decide_and_eq_self_iff, not_lt]
  · rw [lossRight_eq_false_iff_of_le x hd, Value.eq_iff_bits]
    refine forall₂_congr fun i hi => ?_
    rw [bit_lsh_rsh x d hi, decide_and_eq_self_iff, not_le]

/-! ### Two shifts in one direction (law 6) -/

variable (a b : Nat)

theorem lsh_lsh : lsh (lsh x a) b = lsh x (a + b) := by
  refine Value.eq_iff_bits.mpr fun i hi => ?_
  rw [bit_lsh _ b hi, bit_lsh x a (by omega), bit_lsh x (a + b) hi, ← Bool.and_assoc, ← Bool.decide_and,
    show i - b - a = i - (a + b) by omega]
  congr 2
  exact propext (by omega)

theorem rsh_rsh : rsh (rsh x a) b = rsh x (a + b) := by
  refine Value.eq_iff_bits.mpr fun i hi => ?_
  rw [bit_rsh _ b hi, bit_rsh x (a + b) hi]
  by_cases h : i + b < 256
  · rw [bit_rsh x a h, Nat.add_assoc, Nat.add_comm b]
  · rw [Value.bit_of_ge _ (not_lt.mp h), x.bit_of_ge (by omega)]

variable {a b}

theorem lossLeft_or_lossLeft (h : a + b ≤ 255) :
    (lossLeft x a || lossLeft (lsh x a) b) = lossLeft x (a + b) := by
  rw [Bool.eq_iff_iff, ← not_iff_not, Bool.not_eq_true, Bool.not_eq_true, Bool.or_eq_false_iff,
    lossLeft_eq_false_iff x (by omega), lossLeft_eq_false_iff _ (by omega), lossLeft_eq_false_iff x h]
  constructor
  · rintro ⟨hfirst, hsecond⟩ i hi hout
    by_cases hia : 256 ≤ i + a
    · exact hfirst i hi hia
    · simpa [bit_lsh x a (not_le.mp hia)] using hsecond (i + a) (by omega) (by omega)
  · refine fun hsum => ⟨fun i hi hout => hsum i hi (by omega), fun i hi hout => ?_⟩
    rw [bit_lsh x a hi, hsum (i - a) (by omega) (by omega), Bool.and_false]

theorem lossRight_or_lossRight (h : a + b ≤ 255) :
    (lossRight x a || lossRight (rsh x a) b) = lossRight x (a + b) := by
  rw [Bool.eq_iff_iff, ← not_iff_not, Bool.not_eq_true, Bool.not_eq_true, Bool.or_eq_false_iff,
    lossRight_eq_false_iff, lossRight_eq_false_iff, lossRight_eq_false_iff]
  constructor
  · rintro ⟨hfirst, hsecond⟩ i hi
    by_cases hia : i < a
    · exact hfirst i hia
    · have hbit := hsecond (i - a) (by omega)
      rwa [bit_rsh x a (by omega), Nat.sub_add_cancel (not_lt.mp hia)] at hbit
  · refine fun hsum => ⟨fun i hi => hsum i (by omega), fun i hi => ?_⟩
    rw [bit_rsh x a (by omega), hsum (i + a) (by omega)]

/-- Settles O42. -/
theorem shiftsCompose : Obligations.ShiftsCompose :=
  fun x a b h => ⟨lsh_lsh x a b, rsh_rsh x a b, lossLeft_or_lossLeft x h, lossRight_or_lossRight x h⟩

end Machine

end Sys2Proof

/-! What GET, POPCNT and HIGHBIT write to RES, on the number of the value and bit by bit (R150 to R153). -/

namespace Sys2Proof.Machine

/-! ### The number of set bits and the bit length of a value -/

section Counts

variable (x : Value)

/-- Bit i of `val(X)` is bit i of the value (R7, R8). -/
theorem testBit_val (i : Nat) : x.val.testBit i = x.bit i := by
  rw [← wordOf_toNat, testBit_wordOf]

theorem popcount_eq_countP_testBit : popcount x = (List.range 256).countP fun i => x.val.testBit i := by
  simp only [popcount_eq, numPopcount, popcountBits, getLsbD_wordOf, testBit_val]

theorem popcount_le : popcount x ≤ 256 := (popcount_eq x).trans_le (numPopcount_le _)

/-- `bitLength` is the least n with val(X) < 2^n (R153). -/
theorem bitLength_le_iff (n : Nat) : bitLength x ≤ n ↔ x.val < 2 ^ n := by
  rw [bitLength_eq, numBitLength_le_iff, wordOf_toNat]

theorem bitLength_le : bitLength x ≤ 256 := (bitLength_le_iff x 256).mpr x.val_lt

end Counts

/-! ### Result and frame of each query -/

section Results

variable (s : State)

/-- The end of an accepted query: RES, ECODE and the response are all that changes (R150). -/
theorem setRes_accept_frame (r : ResField) :
    (s.setRes r).accept =
      { s with res := (s.setRes r).accept.res, ecode := 0, rspValid := true, dout := (s.setRes r).accept.statusWord } :=
  State.accept_eq _

theorem exec_get_res (idx : BitIndex) :
    ∃ t, exec (.get idx) s = .next t ∧ t.res.toNat = (s.v.bit idx.toNat).toNat ∧
      t = { s with res := t.res, ecode := 0, rspValid := true, dout := t.statusWord } :=
  ⟨_, exec_get s idx, (resField_bit s.v _).trans (by rw [getLsbD_wordOf]), setRes_accept_frame s _⟩

/-- The 9 bits of RES hold every count up to 256 (R27, R152). -/
theorem exec_popcnt_res :
    ∃ t, exec .popcnt s = .next t ∧ t.res.toNat = popcount s.v ∧
      t = { s with res := t.res, ecode := 0, rspValid := true, dout := t.statusWord } :=
  ⟨_, exec_popcnt s, resField_toNat (popcount_le s.v), setRes_accept_frame s _⟩

/-- The 9 bits of RES hold every bit length up to 256 (R27, R153). -/
theorem exec_highbit_res :
    ∃ t, exec .highbit s = .next t ∧ t.res.toNat = bitLength s.v ∧
      t = { s with res := t.res, ecode := 0, rspValid := true, dout := t.statusWord } :=
  ⟨_, exec_highbit s, resField_toNat (bitLength_le s.v), setRes_accept_frame s _⟩

end Results

/-- Settles O43: bit IDX of the value is a digit of its number in base 2. -/
theorem getResult : Obligations.GetResult := by
  intro idx s
  obtain ⟨t, ht, hres, hframe⟩ := exec_get_res s idx
  refine ⟨t, ht, ?_, hframe⟩
  rw [hres, ← testBit_val, Nat.toNat_testBit]

/-- Settles O44: the limbs' counts add up to the count of the number. -/
theorem popcntResult : Obligations.PopcntResult := by
  intro s
  obtain ⟨t, ht, hres, hframe⟩ := exec_popcnt_res s
  exact ⟨t, ht, hres.trans (popcount_eq_countP_testBit s.v), hframe⟩

/-- Settles O45: both halves of the minimum are `bitLength_le_iff`. -/
theorem highbitResult : Obligations.HighbitResult := by
  intro s
  obtain ⟨t, ht, hres, hframe⟩ := exec_highbit_res s
  have hleast (n : Nat) : t.res.toNat ≤ n ↔ s.v.val < 2 ^ n := by rw [hres, bitLength_le_iff]
  exact ⟨t, ht, (hleast _).mp le_rfl, fun n => (hleast n).mpr, hframe⟩

end Sys2Proof.Machine

/-! The laws of the queries (R154): first of the count and the bit length of a value, then of the commands. -/

namespace Sys2Proof

/-- No query writes V or B (R150). -/
theorem Instr.writesV_writesB_of_isQuery {i : Instr} (h : i.isQuery = true) : i.writesV = false ∧ i.writesB = false := by
  cases i with
  | get | popcnt | highbit => exact ⟨rfl, rfl⟩
  | _ => contradiction

namespace Machine

/-! ### The count, the bit length and the bits of a value -/

section Counts

variable (x : Value)

theorem popcount_eq_zero_iff : popcount x = 0 ↔ x = Value.zero := by
  rw [popcount_eq_count, Nat.count_iff_forall_not, Value.eq_iff_bits]
  simp only [Value.bit_zero, Bool.not_eq_true]

theorem bitLength_eq_zero_iff : bitLength x = 0 ↔ x = Value.zero := by
  rw [← Nat.le_zero, bitLength_le_iff, val_lt_two_pow_iff, Value.eq_iff_bits]
  simp only [Value.bit_zero]
  refine ⟨fun h i _ => h i i.zero_le, fun h i _ => ?_⟩
  by_cases hi : i < 256
  · exact h i hi
  · exact x.bit_of_ge (not_lt.mp hi)

theorem bit_of_bitLength_le {i : Nat} (hi : bitLength x ≤ i) : x.bit i = false :=
  (val_lt_two_pow_iff x _).mp ((bitLength_le_iff x _).mp le_rfl) i hi

/-- The bit below the bit length is set, for otherwise the length would be less. -/
theorem bit_bitLength_sub_one (h : 0 < bitLength x) : x.bit (bitLength x - 1) = true := by
  by_contra hclear
  have hless : bitLength x ≤ bitLength x - 1 := by
    rw [bitLength_le_iff, val_lt_two_pow_iff]
    intro i hi
    rcases hi.eq_or_lt with rfl | hlt
    · exact Bool.eq_false_of_not_eq_true hclear
    · exact bit_of_bitLength_le x (by omega)
  omega

/-- All set bits lie below the bit length, so their number is at most that. -/
theorem popcount_le_bitLength : popcount x ≤ bitLength x := by
  have habove : Nat.count (fun i => x.bit (bitLength x + i) = true) (256 - bitLength x) = 0 :=
    count_eq_zero_of_forall_lt fun i _ => by simp [bit_of_bitLength_le x (Nat.le_add_right _ i)]
  rw [popcount_eq_count, count_split _ (Nat.add_sub_of_le (bitLength_le x)), habove]
  exact Nat.count_le _

theorem countP_eq_sum_toNat {α : Type} (p : α → Bool) (l : List α) : l.countP p = (l.map fun a => (p a).toNat).sum := by
  induction l with
  | nil => rfl
  | cons a l ih => cases h : p a <;> simp [h, ih, Nat.add_comm]

/-- The number of set bits is the sum of the bits. -/
theorem popcount_eq_sum_bits : popcount x = ((List.range 256).map fun i => (x.bit i).toNat).sum := by
  rw [← countP_eq_sum_toNat, popcount_eq_countP_testBit]
  simp only [testBit_val]

end Counts

/-! ### The commands -/

/-- A query leaves what it reads, so it answers the same when it is repeated (R154, laws 1 and 6). -/
theorem exec_query_twice {i : Instr} (s : State) (hq : i.isQuery = true) :
    ∃ t u, exec i s = .next t ∧ exec i t = .next u ∧ t.res.toNat ≤ 256 ∧ t.v = s.v ∧ u.res = t.res := by
  obtain ⟨t, ht⟩ := exec_next i s
  obtain ⟨hnv, hnb⟩ := Instr.writesV_writesB_of_isQuery hq
  have hv : t.v = s.v := exec_v_of_not_writesV ht hnv
  have hb : t.b = s.b := exec_b_of_not_writesB ht hnb
  have hdin : t.pins.din = s.pins.din := congrArg Pins.din (exec_keeps_inputs ht).1
  obtain ⟨u, t', hu, ht', -, -, -, hres, -⟩ := noCommandReadsAFlag i t s hv hb hdin
  cases ht'.symm.trans ht
  exact ⟨t, u, ht, hu, (exec_res_toNat ht).trans_le (numExec_res_le_of_isQuery i _ _ hq), hv, hres hq⟩

theorem resField_eq_zero_iff (r : ResField) : r = 0 ↔ r.toNat = 0 := BitVec.toNat_inj.symm

/-- GET answers the bit at IDX as the field RES (R151). -/
theorem exec_get_of_bit {s : State} {idx : BitIndex} {f : Bool} (h : s.v.bit idx.toNat = f) :
    ∃ g, exec (.get idx) s = .next g ∧ g.res = (BitVec.ofBool f).zeroExtend 9 :=
  ⟨_, exec_get s idx, by rw [← h]; rfl⟩

/-- Settles O46: each law of the commands is the law of the count, the bit length and the bits of V. -/
theorem queryLaws : Obligations.QueryLaws := by
  refine ⟨fun i s hq => exec_query_twice s hq, fun s => ?_⟩
  obtain ⟨p, hp, hcount, -⟩ := exec_popcnt_res s
  obtain ⟨h, hh, hlength, -⟩ := exec_highbit_res s
  refine ⟨p, h, hp, hh, ?_, ?_, ?_, fun hpos => ⟨?_, fun i hi => ?_⟩, ?_⟩
  · rw [resField_eq_zero_iff, resField_eq_zero_iff, hlength, hcount, bitLength_eq_zero_iff, popcount_eq_zero_iff]
  · rw [resField_eq_zero_iff, hcount, popcount_eq_zero_iff]
  · rw [hlength, hcount]
    exact popcount_le_bitLength s.v
  · rw [hlength] at hpos ⊢
    have hle := bitLength_le s.v
    have hidx : (BitVec.ofNat 8 (bitLength s.v - 1)).toNat = bitLength s.v - 1 := by
      rw [BitVec.toNat_ofNat, Nat.mod_eq_of_lt (by omega)]
    exact exec_get_of_bit (f := true) (by rw [hidx, bit_bitLength_sub_one s.v hpos])
  · exact exec_get_of_bit (f := false) (bit_of_bitLength_le s.v (hlength ▸ hi))
  · rw [hcount, popcount_eq_sum_bits]
    refine congrArg List.sum (List.map_congr_left fun i hi => ?_)
    obtain ⟨g, hg, hres, -⟩ := exec_get_res s (BitVec.ofNat 8 i)
    rw [BitVec.toNat_ofNat, Nat.mod_eq_of_lt (List.mem_range.mp hi)] at hres
    rw [hg]
    exact hres.symm

end Machine

end Sys2Proof

/-! Range fill (R170 to R172): the mask bit by bit, as a number and in its counts, then what FILL answers and its laws. -/

namespace Sys2Proof

/-- Bit i of `pat(n)` is bit i of n (R9). -/
theorem Value.bit_pat (n : Nat) {i : Nat} (hi : i < 256) : (Value.pat n).bit i = n.testBit i := by
  rw [Value.pat, Value.bit_ofLimbs _ hi, BitVec.getLsbD_ofNat, Nat.testBit_div_two_pow, Nat.mod_add_div,
    decide_eq_true (Nat.mod_lt i (by decide)), Bool.true_and]

namespace Machine

/-! ### The mask -/

section Mask

variable {start stop : Nat}

/-- The fill mask as a pattern (R170). -/
theorem fillMask_eq_pat (h : start ≤ stop) : fillMask start stop = Value.pat (2 ^ stop - 2 ^ start) := by
  refine Value.eq_iff_bits.mpr fun i hi => ?_
  rw [Value.bit_pat _ hi, ← getLsbD_wordOf, wordOf_fillMask h, numFillMask, BitVec.getLsbD_ofNat, decide_eq_true hi,
    Bool.true_and]

/-- Settles O47. -/
theorem fillMaskDefinitionsAgree : Obligations.FillMaskDefinitionsAgree :=
  fun start stop => ⟨fillOk_iff, fun hok => ⟨fun _ hi => bit_fillMask start stop hi,
    fillMask_eq_pat (fillOk_iff.mp hok).1, fun _ hj => limbAt_fillMask start stop hj⟩⟩

/-- The set bits of a mask are the indices of its range. -/
theorem popcount_fillMask (hstop : stop ≤ 256) : popcount (fillMask start stop) = stop - start := by
  have hset : (Finset.range 256).filter (fun i => (fillMask start stop).bit i = true) = Finset.Ico start stop := by
    ext i
    rw [Finset.mem_filter, Finset.mem_range, Finset.mem_Ico]
    constructor
    · rintro ⟨hi, hbit⟩
      rwa [bit_fillMask start stop hi, decide_eq_true_eq] at hbit
    · intro hmem
      have hi : i < 256 := by omega
      exact ⟨hi, by rw [bit_fillMask start stop hi, decide_eq_true hmem]⟩
  rw [popcount_eq_count, Nat.count_eq_card_filter_range, hset, Nat.card_Ico]

/-- The highest set bit of a non-empty mask is the last index of its range. -/
theorem bitLength_fillMask (hlt : start < stop) (hstop : stop ≤ 256) : bitLength (fillMask start stop) = stop := by
  apply le_antisymm
  · rw [bitLength_le_iff, val_lt_two_pow_iff]
    intro i hi
    by_cases h : i < 256
    · rw [bit_fillMask start stop h, decide_eq_false (by omega)]
    · exact Value.bit_of_ge _ (not_lt.mp h)
  · by_contra hless
    have hclear := bit_of_bitLength_le (fillMask start stop) (show _ ≤ stop - 1 by omega)
    rw [bit_fillMask start stop (by omega), decide_eq_true (by omega)] at hclear
    contradiction

end Mask

/-! ### A value with a range filled -/

section Filled

variable (x : Value)

theorem bit_orMask (m : Value) {i : Nat} (hi : i < 256) : (orMask x m).bit i = (x.bit i || m.bit i) := by
  rw [orMask_eq_laneWise, bit_laneWise _ _ (g := or) (by simp) hi]

/-- A fill sets the bits of the range and keeps the others (R171). -/
theorem bit_orMask_fillMask (start stop : Nat) {i : Nat} (hi : i < 256) :
    (orMask x (fillMask start stop)).bit i = (x.bit i || decide (start ≤ i ∧ i < stop)) := by
  rw [bit_orMask _ _ hi, bit_fillMask _ _ hi]

/-- Filling two adjacent ranges fills the range they make up (R172, law 3). -/
theorem orMask_fillMask_join {a b c : Nat} (hab : a ≤ b) (hbc : b ≤ c) :
    orMask (orMask x (fillMask a b)) (fillMask b c) = orMask x (fillMask a c) := by
  refine Value.eq_iff_bits.mpr fun i hi => ?_
  have hrange : (a ≤ i ∧ i < b) ∨ (b ≤ i ∧ i < c) ↔ a ≤ i ∧ i < c := by omega
  rw [bit_orMask_fillMask _ _ _ hi, bit_orMask_fillMask _ _ _ hi, bit_orMask_fillMask _ _ _ hi, Bool.or_assoc,
    ← Bool.decide_or, decide_eq_decide.mpr hrange]

/-- Setting the bits of a mask again changes nothing (R172, law 2). -/
theorem orMask_orMask_self (m : Value) : orMask (orMask x m) m = orMask x m :=
  Value.ext_limbs fun j hj => by
    simp only [orMask_eq_laneWise, limbAt_laneWise _ _ _ hj, BitVec.or_assoc, BitVec.or_self]

theorem orMask_zero_left : orMask Value.zero x = x := laneWise_or_zero_left x

/-- A value with further bits set has no fewer set bits. -/
theorem popcount_le_orMask (m : Value) : popcount m ≤ popcount (orMask x m) := by
  rw [popcount_eq_count, popcount_eq_count]
  exact Nat.count_mono_left fun i hi hbit => by rw [bit_orMask x m hi, hbit, Bool.or_true]

end Filled

/-! ### The command -/

/-- Settles O48: the end of an accepted command writes only ECODE and the response. -/
theorem fillResult : Obligations.FillResult :=
  fun _ _ s hle hstop => ⟨_, exec_fill_ok s (fillOk_iff.mpr ⟨hle, hstop⟩), fun _ hi => bit_orMask_fillMask s.v _ _ hi,
    State.accept_eq _⟩

/-- Settles O49: bounds outside the domain are not legal, and a rejection writes only ECODE, STICKY and the response. -/
theorem fillOutOfRangeIsRejected : Obligations.FillOutOfRangeIsRejected := by
  intro start stop s hbounds
  have hbad : fillOk start.toNat stop.toNat = false := by
    rw [← Bool.not_eq_true, fillOk_iff]
    omega
  exact ⟨_, exec_fill_rejected s hbad, State.reject_eq s .fillRange⟩

theorem exec_fill_v (s : State) {start stop : Bound} (hok : fillOk start.toNat stop.toNat = true) :
    ∃ t, exec (.fill start stop) s = .next t ∧ t.v = orMask s.v (fillMask start.toNat stop.toNat) :=
  ⟨_, exec_fill_ok s hok, rfl⟩

/-- On V = 0 a fill of one bit sets that bit only (R172, law 1). -/
theorem exec_fill_one_bit {s : State} (hv : s.v = Value.zero) {i : Nat} (hi : i < 256) :
    ∃ t, exec (.fill (BitVec.ofNat 9 i) (BitVec.ofNat 9 (i + 1))) s = .next t ∧
      ∀ k < 256, t.v.bit k = decide (k = i) := by
  have hstart : (BitVec.ofNat 9 i).toNat = i := resField_toNat hi.le
  have hstop : (BitVec.ofNat 9 (i + 1)).toNat = i + 1 := resField_toNat hi
  obtain ⟨t, ht, hbit, -⟩ := fillResult (BitVec.ofNat 9 i) (BitVec.ofNat 9 (i + 1)) s (by omega) (by omega)
  refine ⟨t, ht, fun k hk => ?_⟩
  rw [hbit k hk, hv, Value.bit_zero, Bool.false_or, hstart, hstop, decide_eq_decide]
  omega

/-- Settles O50: laws 2, 4 and 5 are those of the value with the range filled, and law 3 that of two such values, since
the end of an accepted command overwrites what the end of the one before it wrote. -/
theorem fillLaws : Obligations.FillLaws := by
  refine ⟨fun i s hi hv => exec_fill_one_bit hv hi, fun start stop s hok => ?_, fun a b c s hab hbc hc => ?_⟩
  · have hstop : stop.toNat ≤ 256 := (fillOk_iff.mp hok).2
    obtain ⟨t, ht, htv⟩ := exec_fill_v s hok
    obtain ⟨u, hu, huv⟩ := exec_fill_v t hok
    obtain ⟨p, hp, hcount, -⟩ := exec_popcnt_res t
    obtain ⟨h, hh, hlength, -⟩ := exec_highbit_res t
    refine ⟨t, u, p, h, ht, hu, ?_, ?_, hp, hh, fun hv hlt => ?_⟩
    · rw [huv, htv, orMask_orMask_self]
    · rw [htv, ← popcount_fillMask hstop]
      exact popcount_le_orMask s.v _
    · rw [hcount, hlength, htv, hv, orMask_zero_left]
      exact ⟨popcount_fillMask hstop, bitLength_fillMask hlt hstop⟩
  · refine ⟨_, _, exec_fill_ok s (fillOk_iff.mpr ⟨hab, hbc.trans hc⟩), exec_fill_ok _ (fillOk_iff.mpr ⟨hbc, hc⟩), ?_⟩
    rw [exec_fill_ok s (fillOk_iff.mpr ⟨hab.trans hbc, hc⟩), ← orMask_fillMask_join s.v hab hbc]
    rfl

end Machine

end Sys2Proof

/-! The bitwise combinators (R180 to R184): what IOR, AND and XOR answer, then the laws of their lanes and their bits. -/

namespace Sys2Proof.Machine

/-! ### Values combined lane by lane -/

section Lanes

variable (x y : Value)

theorem bit_laneWise_or {i : Nat} (hi : i < 256) :
    (laneWise (fun a b => a ||| b) x y).bit i = (x.bit i || y.bit i) :=
  bit_laneWise x y (fun _ _ _ _ => BitVec.getLsbD_or) hi

theorem bit_laneWise_and {i : Nat} (hi : i < 256) :
    (laneWise (fun a b => a &&& b) x y).bit i = (x.bit i && y.bit i) :=
  bit_laneWise x y (fun _ _ _ _ => BitVec.getLsbD_and) hi

theorem bit_laneWise_xor {i : Nat} (hi : i < 256) :
    (laneWise (fun a b => a ^^^ b) x y).bit i = (x.bit i != y.bit i) :=
  bit_laneWise x y (fun _ _ _ _ => BitVec.getLsbD_xor) hi

/-- A second XOR with the same value undoes the first (R184, law 2). -/
theorem laneWise_xor_cancel_right : laneWise (fun a b => a ^^^ b) (laneWise (fun a b => a ^^^ b) x y) y = x :=
  Value.ext_limbs fun j hj => by
    rw [limbAt_laneWise _ _ _ hj, limbAt_laneWise _ _ _ hj, BitVec.xor_assoc, BitVec.xor_self, BitVec.xor_zero]

variable {x y}

/-- A value whose set bits are all set in another has no more of them. -/
theorem popcount_le_of_bits (h : ∀ i < 256, x.bit i = true → y.bit i = true) : popcount x ≤ popcount y := by
  rw [popcount_eq_count, popcount_eq_count]
  exact Nat.count_mono_left h

variable (x y)

theorem popcount_le_laneWise_or : popcount x ≤ popcount (laneWise (fun a b => a ||| b) x y) :=
  popcount_le_of_bits fun i hi hx => by rw [bit_laneWise_or x y hi, hx, Bool.true_or]

theorem popcount_laneWise_and_le : popcount (laneWise (fun a b => a &&& b) x y) ≤ popcount x :=
  popcount_le_of_bits fun i hi hand => by
    rw [bit_laneWise_and x y hi, Bool.and_eq_true] at hand
    exact hand.1

end Lanes

/-! ### The commands -/

/-- The end of an accepted combinator: V, ECODE and the response are all that changes (R181 to R183). -/
theorem setV_accept_frame (s : State) (x : Value) :
    (s.setV x).accept =
      { s with v := (s.setV x).accept.v, ecode := 0, rspValid := true, dout := (s.setV x).accept.statusWord } :=
  State.accept_eq _

/-- Settles O51: each lane function acts bit by bit, and the end of an accepted command writes ECODE and the response
besides V. -/
theorem bitwiseResult : Obligations.BitwiseResult := fun op s =>
  ⟨⟨_, exec_ior s op, fun _ hi => bit_laneWise_or s.v _ hi, setV_accept_frame s _⟩,
    ⟨_, exec_and s op, fun _ hi => bit_laneWise_and s.v _ hi, setV_accept_frame s _⟩,
    ⟨_, exec_xor s op, fun _ hi => bit_laneWise_xor s.v _ hi, setV_accept_frame s _⟩⟩

/-- Each of the three commands writes to V a lane-wise combination of V and the selected operand (R181 to R183). -/
theorem exec_combinator {op : OpSel} {i : Instr} (hi : i ∈ [Instr.ior op, Instr.and op, Instr.xor op]) :
    ∃ f : Limb → Limb → Limb, ∀ s : State, exec i s = .next (s.setV (laneWise f s.v (s.selected op))).accept := by
  simp only [List.mem_cons, List.not_mem_nil, or_false] at hi
  obtain rfl | rfl | rfl := hi
  · exact ⟨_, fun s => exec_ior s op⟩
  · exact ⟨_, fun s => exec_and s op⟩
  · exact ⟨_, fun s => exec_xor s op⟩

/-- Limb j of the selected operand is limb j of V or of B (R180). -/
theorem limbAt_selected_congr {s s' : State} {j : Nat} (hv : s.v.limbAt j = s'.v.limbAt j)
    (hb : s.b.limbAt j = s'.b.limbAt j) (op : OpSel) : (s.selected op).limbAt j = (s'.selected op).limbAt j := by
  cases op with
  | b => exact hb
  | v => exact hv

/-- IOR and AND with V itself leave V as it is (R184, law 3). -/
theorem exec_idempotent_aliased (s : State) {i : Instr} (hi : i ∈ [Instr.ior .v, Instr.and .v]) :
    exec i s = .next s.accept := by
  simp only [List.mem_cons, List.not_mem_nil, or_false] at hi
  obtain rfl | rfl := hi
  · rw [exec_ior, State.selected_v, laneWise_self s.v fun _ => BitVec.or_self]
    rfl
  · rw [exec_and, State.selected_v, laneWise_self s.v fun _ => BitVec.and_self]
    rfl

/-- Settles O53: laws 1 and 4 hold of every lane-wise command; laws 2, 3 and 5 are those of the lane functions. -/
theorem bitwiseLaws : Obligations.BitwiseLaws := by
  refine ⟨fun op s s' j hj hv hb i hi => ?_, fun s => ?_, fun s i hi => ?_, fun s i hi => ?_, fun op s => ?_⟩
  · obtain ⟨f, hf⟩ := exec_combinator hi
    refine ⟨_, _, hf s, hf s', ?_⟩
    simp only [State.accept_eq, State.setV_v]
    rw [limbAt_laneWise f _ _ hj, limbAt_laneWise f _ _ hj, hv, limbAt_selected_congr hv hb op]
  · exact ⟨_, _, exec_xor s .b, exec_xor _ .b, laneWise_xor_cancel_right s.v s.b⟩
  · exact ⟨_, exec_idempotent_aliased s hi, State.accept_eq s⟩
  · obtain ⟨f, hf⟩ := exec_combinator hi
    exact ⟨_, hf s, rfl⟩
  · exact ⟨_, _, exec_ior s op, exec_and s op, popcount_le_laneWise_or s.v _, popcount_laneWise_and_le s.v _⟩

end Sys2Proof.Machine

/-! A rejected command, whichever of the three checks finds the error (R203, R204): the edge is the rejection and nothing
else. -/

namespace Sys2Proof

theorem ErrorCode.code_mem (e : ErrorCode) : e.code ∈ [1, 2, 3] := by
  cases e <;> decide

namespace Machine

/-- A decoded command that is rejected for its range is a FILL, and rejects (R171). -/
theorem exec_of_rejectedRange {i : Instr} (h : i.rejectedRange = true) (s : State) :
    exec i s = .next (s.reject .fillRange) := by
  cases i with
  | fill start stop => exact exec_fill_rejected s ((Bool.not_eq_true' _).mp h)
  | _ => contradiction

/-- A presented word that meets an error is rejected with it, in the decoder or by the command itself (R74, R203). -/
theorem step_of_errorOf {s : State} {e : ErrorCode} (ha : s.accepting = true) (he : errorOf s.pins.cmd = some e) :
    step s = .next (s.reject e).advance := by
  cases hd : decode s.pins.cmd with
  | error e' =>
    cases (errorOf_of_decode_error hd).symm.trans he
    exact step_decode_error ha hd
  | ok i =>
    rw [errorOf_of_decode_ok hd, Option.ite_none_right_eq_some] at he
    obtain ⟨hrange, hcode⟩ := he
    cases hcode
    exact step_decode_ok ha hd (exec_of_rejectedRange hrange s)

/-- Settles O10: the edge is the rejection by `step_of_errorOf`, and `State.reject` writes ECODE, STICKY and the response
only; the move to the host's next input levels keeps every field named here. -/
theorem rejectionWritesErrorFieldsOnly : Obligations.RejectionWritesErrorFieldsOnly :=
  fun _ e ha he => ⟨_, step_of_errorOf ha he, rfl, e.code_mem, rfl, rfl, rfl, rfl, rfl, rfl, rfl, rfl⟩

end Machine

end Sys2Proof

/-! Reset and hazards: the reset edge and the state it leaves (R240, R241), runs that go on (R247), and commands in
consecutive cycles (R244). -/

namespace Sys2Proof

/-- A shift or a query does not use the data word: it is no WRV and no WRB (R75). -/
theorem Instr.opcode_ne_of_isShift_or_isQuery {i : Instr} (h : i.isShift = true ∨ i.isQuery = true) :
    i.opcode ≠ .wrv ∧ i.opcode ≠ .wrb := by
  cases i with
  | wrv | wrb => simp [isShift, isQuery] at h
  | _ => exact ⟨nofun, nofun⟩

namespace Machine

/-! ### Reset -/

section Reset

variable (s : State)

/-- STATUS is 0 after a reset edge (R241). -/
theorem resetEdge_statusWord : s.resetEdge.statusWord = 0 := statusOf_clear

/-- A reset edge reads none of the input levels of its cycle, the presented command among them (R240). -/
theorem resetEdge_with_pins (p : Pins) : State.resetEdge { s with pins := p } = s.resetEdge := rfl

end Reset

/-- Settles O12: with `rst = 1` the step is the reset edge, which reads no input level. -/
theorem resetWinsOverCommand : Obligations.ResetWinsOverCommand := by
  intro s p hs hp
  have hready : s.cmdReady = false := by rw [State.cmdReady, hs, Bool.not_true]
  have hstep : step { s with pins := p } = step s := by
    rw [step_reset hs, step_reset (s := { s with pins := p }) hp, resetEdge_with_pins]
  exact ⟨hready, hstep, _, step_reset hs, rfl, rfl, rfl, resetEdge_statusWord s⟩

/-- Settles O13: V and B are the zero value, whose limbs are 0, and STATUS is the word of four fields that are 0. -/
theorem resetLeavesEveryFieldZero : Obligations.ResetLeavesEveryFieldZero :=
  ⟨fun j _ => ⟨limbAt_zero j, limbAt_zero j⟩, rfl, rfl, rfl, rfl, statusOf_clear, rfl,
    fun s hs => ⟨_, step_reset hs, fun j _ => ⟨limbAt_zero j, limbAt_zero j⟩, rfl, rfl, rfl, rfl,
      resetEdge_statusWord s⟩⟩

/-- Settles O17: RES and ECODE are 0, so no error is left to record. -/
theorem resetMeetsStatusInvariant : Obligations.ResetMeetsStatusInvariant :=
  ⟨⟨Nat.zero_le 256, Nat.zero_le 3⟩, fun hne => absurd rfl hne⟩

/-- Settles O15: every command answers by `exec_next`, and a run answers the fold of its edges. -/
theorem everyRunGoesOn : Obligations.EveryRunGoesOn := by
  refine ⟨exec_next, fun n s => ?_, fun _ => rfl⟩
  obtain ⟨t, ht, -⟩ := runIsTheFoldOfItsEdges n s
  exact ⟨t, ht⟩

/-! ### Commands in consecutive cycles -/

/-- A run of the machine goes on from the state its first edge answers. -/
theorem run_core_succ {s t : State} (h : step s = .next t) (n : Nat) :
    Host.Core.run core (n + 1) s = Host.Core.run core n t :=
  run_succ_of_step core h n

/-- The command step leaves the host's schedule alone, whether the word is rejected or performed. -/
theorem commandStep_keeps_schedule {s t : State} (h : commandStep s = .next t) : t.schedule = s.schedule := by
  rw [commandStep] at h
  cases hd : decode s.pins.cmd with
  | error e => rw [hd] at h; cases h; rfl
  | ok i =>
    rw [hd] at h
    obtain ⟨-, hschedule, -⟩ := exec_keeps_inputs h
    exact hschedule

section Present

variable (s : State) (cs : List Command)

@[simp] theorem numeric_present : (s.present cs).numeric = s.numeric := by cases cs <;> rfl

/-- The edge that accepts the first of the presented commands, legal or not, answers what its numeric command step does
on the state before, and presents the rest (R62, R74). -/
theorem step_present (c : Command) :
    ∃ t : State, step (s.present (c :: cs)) = .next (t.present cs) ∧ t.rspValid = true ∧
      (t.numeric, t.dout.toNat) = numCommand c s.numeric := by
  obtain ⟨t, ht, hrsp, hanswer⟩ := commandStep_answers (s.present (c :: cs))
  refine ⟨t, ?_, hrsp, by rwa [numeric_present] at hanswer⟩
  rw [step_accepting rfl, ht, ← State.advance_eq_present cs (commandStep_keeps_schedule ht)]
  rfl

/-- One presented command answers its numeric command step (R74). -/
theorem run_present_one (c : Command) : Answers (Host.Core.run core 1 (s.present [c])) (numCommand c s.numeric) := by
  obtain ⟨t, ht, hrsp, hanswer⟩ := step_present s [] c
  exact ⟨t.present [], run_core_succ ht 0, hrsp, hanswer⟩

/-- Of two commands presented in consecutive cycles, the second answers its numeric command step on what the first left
(R244). -/
theorem run_present_two (c₁ c₂ : Command) :
    Answers (Host.Core.run core 2 (s.present [c₁, c₂])) (numCommand c₂ (numCommand c₁ s.numeric).1) := by
  obtain ⟨t, ht, -, hfirst⟩ := step_present s [c₂] c₁
  rw [run_core_succ ht, ← hfirst]
  exact run_present_one t c₂

end Present

/-- A command that does not use the data word computes the same V, LOSS and RES in two states that agree on V and B
(R31, R75). -/
theorem exec_agree {i : Instr} {s s' t t' : State} (hi : i.isShift = true ∨ i.isQuery = true)
    (ht : exec i s = .next t) (ht' : exec i s' = .next t') (hv : s.v = s'.v) (hb : s.b = s'.b) :
    t.v = t'.v ∧ t.b = t'.b ∧ (i.isShift = true → t.loss = t'.loss) ∧ (i.isQuery = true → t.res = t'.res) := by
  obtain ⟨hwrv, hwrb⟩ := Instr.opcode_ne_of_isShift_or_isQuery hi
  obtain ⟨u, u', hu, hu', hagree⟩ := noCommandReadsAFlag i s (s'.setDin s.pins.din) hv hb rfl
  obtain ⟨hv', hb', hloss, hres, -⟩ := hagree
  cases hu.symm.trans ht
  cases hu'.symm.trans (exec_setDin s' s.pins.din hwrv hwrb ht')
  exact ⟨hv', hb', hloss, hres⟩

/-! ### The pairs that R244 lists -/

section Pairs

variable (s : State) (d d' : Limb)

/-- RDV right after WRV of the same limb answers the word written (R244). -/
theorem run_wrv_rdv (limb : LimbIndex) :
    ∃ u, Host.Core.run core 2 (s.present [⟨encode (.wrv limb), d⟩, ⟨encode (.rdv limb), d'⟩]) = .next u ∧ u.dout = d :=
  ⟨_, (run_present_cons (exec_wrv _ limb)).trans (run_present_last (exec_rdv _ limb)),
    (limbAt_writeLimb s.v limb d limb.toNat).trans (if_pos rfl)⟩

/-- A shift right after a WRV shifts the value with the limb written (R244). -/
theorem run_wrv_shift (limb : LimbIndex) {i : Instr} (hi : i.isShift = true) :
    ∃ t u, Host.Core.run core 2 (s.present [⟨encode (.wrv limb), d⟩, ⟨encode i, d'⟩]) = .next u ∧
      exec i (s.setV (s.v.setLimb limb.toNat d)) = .next t ∧ u.v = t.v ∧ u.loss = t.loss := by
  obtain ⟨t, ht⟩ := exec_next i (s.setV (s.v.setLimb limb.toNat d))
  obtain ⟨u, hu⟩ := exec_next i (((s.setV (writeLimb s.v limb d)).accept).present [⟨encode i, d'⟩])
  obtain ⟨hv, -, hloss, -⟩ := exec_agree (.inl hi) hu ht rfl rfl
  exact ⟨t, u.present [], (run_present_cons (exec_wrv _ limb)).trans (run_present_last hu), ht, hv, hloss hi⟩

/-- A query right after a shift answers for the shifted value, and leaves it (R244). -/
theorem run_shift_query {i q : Instr} (hi : i.isShift = true) (hq : q.isQuery = true) :
    ∃ t r u, Host.Core.run core 2 (s.present [⟨encode i, d⟩, ⟨encode q, d'⟩]) = .next u ∧
      exec i s = .next t ∧ exec q t = .next r ∧ u.v = t.v ∧ u.res = r.res := by
  obtain ⟨t, ht⟩ := exec_next i s
  obtain ⟨r, hr⟩ := exec_next q t
  obtain ⟨t', ht'⟩ := exec_next i (s.present [⟨encode i, d⟩, ⟨encode q, d'⟩])
  obtain ⟨r', hr'⟩ := exec_next q (t'.present [⟨encode q, d'⟩])
  obtain ⟨hv, hb, -, -⟩ := exec_agree (.inl hi) ht' ht rfl rfl
  obtain ⟨-, -, -, hres⟩ := exec_agree (.inr hq) hr' hr hv hb
  obtain ⟨hwrites, -⟩ := Instr.writesV_writesB_of_isQuery hq
  have hkeep : r'.v = t'.v := (exec_v_of_not_writesV hr' hwrites).trans (State.present_v t' _)
  exact ⟨t, r, r'.present [], (run_present_cons ht').trans (run_present_last hr'), ht, hr, hkeep.trans hv, hres hq⟩

/-- RDST right after any command word, legal or not, answers the STATUS that word left (R244). -/
theorem run_rdst (c : Command) :
    ∃ t u, Host.Core.run core 1 (s.present [c]) = .next t ∧
      Host.Core.run core 2 (s.present [c, ⟨encode .rdst, d⟩]) = .next u ∧ u.dout = t.statusWord := by
  obtain ⟨t, ht, -, hfirst⟩ := run_present_one s c
  obtain ⟨u, hu, -, hsecond⟩ := run_present_two s c ⟨encode .rdst, d⟩
  refine ⟨t, u, ht, hu, BitVec.eq_of_toNat_eq ?_⟩
  rw [← hfirst, numCommand_of_decode_ok _ (decode_encode .rdst)] at hsecond
  calc u.dout.toNat = (numExec .rdst d t.numeric).2 := congrArg Prod.snd hsecond
    _ = t.statusWord.toNat := (statusWord_toNat t).symm

end Pairs

/-- Settles O30: two words by `run_present_two`, and the pairs of R244's list by a lemma each. -/
theorem nextCommandSeesEveryEffect : Obligations.NextCommandSeesEveryEffect :=
  ⟨run_present_two, fun s limb d d' => run_wrv_rdv s d d' limb, fun s limb d d' _ hi => run_wrv_shift s d d' limb hi,
    fun s _ _ d d' hi hq => run_shift_query s d d' hi hq, fun s c d => run_rdst s d c⟩

end Machine

end Sys2Proof

/-! Launch states (U9, U11): the three answers of `State.launch`, and the states it accepts. -/

namespace Sys2Proof.Machine

section Launch

variable {s : State}

theorem State.launch_of_ecode (hecode : 4 ≤ s.ecode.toNat) : s.launch = .refused .launchEcode := if_pos hecode

theorem State.launch_of_res (hecode : s.ecode.toNat ≤ 3) (hres : 257 ≤ s.res.toNat) :
    s.launch = .refused .launchRes :=
  (if_neg (not_lt.mpr hecode)).trans (if_pos hres)

theorem State.launch_of_legalStatus (hs : s.LegalStatus) : s.launch = .next s := by
  obtain ⟨hres, hecode⟩ := hs
  exact (if_neg (not_lt.mpr hecode)).trans (if_neg (not_lt.mpr hres))

/-- Past the ECODE check and the RES check only the legal states are left. -/
theorem State.launch_eq_next_iff : s.launch = .next s ↔ s.LegalStatus := by
  refine ⟨fun h => ?_, launch_of_legalStatus⟩
  rcases Nat.lt_or_ge 3 s.ecode.toNat with hbad | hecode
  · rw [launch_of_ecode hbad] at h
    contradiction
  · rcases Nat.lt_or_ge 256 s.res.toNat with hbad | hres
    · rw [launch_of_res hecode hbad] at h
      contradiction
    · exact ⟨hres, hecode⟩

end Launch

/-- Settles O55: the accepted states by `State.launch_eq_next_iff`, and each refusal by its own check. -/
theorem launchRefusesUnreachableStatus : Obligations.LaunchRefusesUnreachableStatus :=
  fun _ => ⟨State.launch_eq_next_iff, State.launch_of_ecode, State.launch_of_res⟩

end Sys2Proof.Machine
